-- ==== Sys2Proof/Word.lean ====
section
/-! DEFINITION. The word types of the host bus and of the controller (00_scope.md R9, R10). -/

namespace Sys2Proof

/-- One host data word: 32 bits, bit 0 least significant (00_scope.md R9, R10). -/
abbrev Word := BitVec 32

/-- One 8-bit value: a mask register, a controller byte, the data lines DL[7:0], a glyph code (00_scope.md R9). -/
abbrev Byte := BitVec 8

/-- A 1-bit flag as a byte, zero-extended (`zext_8` of 00_scope.md R10). -/
def bitByte (b : Bool) : Byte := if b then 1 else 0

@[simp] theorem bitByte_true : bitByte true = 1 := rfl
@[simp] theorem bitByte_false : bitByte false = 0 := rfl

end Sys2Proof
end

