-- ==== Sys2Proof/Syntax.lean ====
section
/-! DEFINITION. The commands: one constructor per row of spec/opcode_table.json (30_encoding.md R60). -/

namespace Sys2Proof

/-- A command the host writes to CMD (30_encoding.md R58 to R61). The operands that the spec counts with or compares (the
count n, the row, the column) are natural numbers, checked by `Instr.WellFormed`. The others are exactly their bits. -/
inductive Instr where
  /-- INIT, 0x01: check CONFIG, latch it, seed the masks and run the init sequence (42_lifecycle.md R99). -/
  | init
  /-- CLEAR, 0x02 (41_protocol_ops.md R88). -/
  | clear
  /-- HOME, 0x03 (41_protocol_ops.md R89). -/
  | home
  /-- CURSOR_BLINK, 0x04: on = word[0] (41_protocol_ops.md R90). -/
  | cursorBlink (on : Bool)
  /-- CURSOR_VISIBLE, 0x05: on = word[0] (41_protocol_ops.md R91). -/
  | cursorVisible (on : Bool)
  /-- DISPLAY_ON, 0x06: on = word[0] (41_protocol_ops.md R92). -/
  | displayOn (on : Bool)
  /-- MOVE_LEFT, 0x07: n = word[7:0] (41_protocol_ops.md R93). -/
  | moveLeft (n : Nat)
  /-- SET_CURSOR, 0x08: row = word[15:8], col = word[7:0] (41_protocol_ops.md R94). -/
  | setCursor (row col : Nat)
  /-- PRINT_CHAR, 0x09: g = word[7:0], a controller glyph code (41_protocol_ops.md R95). -/
  | printChar (g : Byte)
  /-- BACKLIGHT, 0x0A: on = word[0] (41_protocol_ops.md R96). -/
  | backlight (on : Bool)
  /-- CLOSE, 0x0B (42_lifecycle.md R103). -/
  | close
  deriving DecidableEq, Repr

end Sys2Proof
end

