-- ==== Sys2Proof/WellFormed.lean ====
section
/-! DEFINITION. Which commands have a word: "An operand out of its range is an assembly error" (30_encoding.md R73). -/

namespace Sys2Proof

/-- Every operand lies in the range that R73 gives it: 0 <= n <= 255 for MOVE_LEFT, 0 <= row, col <= 255 for SET_CURSOR. The
other operands cannot be out of range, being exactly their bits. -/
def Instr.WellFormed : Instr → Bool
  | .init => true
  | .clear => true
  | .home => true
  | .cursorBlink _ => true
  | .cursorVisible _ => true
  | .displayOn _ => true
  | .moveLeft n => decide (n ≤ 255)
  | .setCursor row col => decide (row ≤ 255) && decide (col ≤ 255)
  | .printChar _ => true
  | .backlight _ => true
  | .close => true

end Sys2Proof
end

