-- ==== Sys2Proof/Decode.lean ====
section
/-! DEFINITION. The command word: its fields, the total decoder, and after it the encoder (30_encoding.md R58 to R64, R73). -/

namespace Sys2Proof

/-- The field OPC, bits [31:24] (30_encoding.md R58). -/
def opcField (w : Word) : Byte := w.extractLsb' 24 8

/-- The field RSV, bits [23:16], "reserved; must be 0" (30_encoding.md R58). -/
def rsvField (w : Word) : Byte := w.extractLsb' 16 8

/-- The field A, bits [15:8] (30_encoding.md R58). -/
def aField (w : Word) : Byte := w.extractLsb' 8 8

/-- The field B, bits [7:0] (30_encoding.md R58). -/
def bField (w : Word) : Byte := w.extractLsb' 0 8

/-- Why a word is illegal: the five bullets of 30_encoding.md R63, one constructor each. They all raise CMDERR
(60_exceptions.md R110). -/
inductive Illegal where
  /-- OPC is 0x00 or 0x0C to 0xFF. -/
  | unknownOpcode
  /-- RSV is not 0. -/
  | reservedNotZero
  /-- A is not 0 for an opcode other than SET_CURSOR. -/
  | operandANotZero
  /-- B[7:1] is not 0 for a command with an on/off operand. -/
  | operandBNotABit
  /-- B is not 0 for a command with no operand. -/
  | operandBNotZero
  deriving DecidableEq, Repr

/-- A command without operands: A and B are 0 (30_encoding.md R61, R63). -/
def decodeNoOperand (w : Word) (i : Instr) : Except Illegal Instr :=
  if aField w ≠ 0 then .error .operandANotZero
  else if bField w ≠ 0 then .error .operandBNotZero
  else .ok i

/-- A command with an on/off operand: A and B[7:1] are 0, on = B[0] (30_encoding.md R61 to R63). -/
def decodeOnOff (w : Word) (i : Bool → Instr) : Except Illegal Instr :=
  if aField w ≠ 0 then .error .operandANotZero
  else if (bField w).extractLsb' 1 7 ≠ 0 then .error .operandBNotABit
  else .ok (i (w.getLsbD 0))

/-- A command whose operand is all of B: A is 0 (30_encoding.md R61 to R63). -/
def decodeOperandB (w : Word) (i : Byte → Instr) : Except Illegal Instr :=
  if aField w ≠ 0 then .error .operandANotZero else .ok (i (bField w))

/-- The decoder: "Every word is either legal, with the rule its opcode names, or illegal" (30_encoding.md R60 to R64). -/
def decode (w : Word) : Except Illegal Instr :=
  if rsvField w ≠ 0 then .error .reservedNotZero
  else match (opcField w).toNat with
    | 0x01 => decodeNoOperand w .init
    | 0x02 => decodeNoOperand w .clear
    | 0x03 => decodeNoOperand w .home
    | 0x04 => decodeOnOff w .cursorBlink
    | 0x05 => decodeOnOff w .cursorVisible
    | 0x06 => decodeOnOff w .displayOn
    | 0x07 => decodeOperandB w (fun b => .moveLeft b.toNat)
    | 0x08 => .ok (.setCursor (aField w).toNat (bField w).toNat)
    | 0x09 => decodeOperandB w .printChar
    | 0x0A => decodeOnOff w .backlight
    | 0x0B => decodeNoOperand w .close
    | _ => .error .unknownOpcode

/-- `Legal(v)` of 60_exceptions.md R114. -/
def Legal (w : Word) : Bool := (decode w).toOption.isSome

/-- A command word from its fields, RSV being 0 (30_encoding.md R58). -/
def commandWord (opc a b : Byte) : Word := opc ++ (0 : Byte) ++ a ++ b

/-- The encoder: the word of a command, by the table of 30_encoding.md R73 (and R61). It is meant for well-formed commands. -/
def encode : Instr → Word
  | .init => commandWord 0x01 0 0
  | .clear => commandWord 0x02 0 0
  | .home => commandWord 0x03 0 0
  | .cursorBlink on => commandWord 0x04 0 (bitByte on)
  | .cursorVisible on => commandWord 0x05 0 (bitByte on)
  | .displayOn on => commandWord 0x06 0 (bitByte on)
  | .moveLeft n => commandWord 0x07 0 (BitVec.ofNat 8 n)
  | .setCursor row col => commandWord 0x08 (BitVec.ofNat 8 row) (BitVec.ofNat 8 col)
  | .printChar g => commandWord 0x09 0 g
  | .backlight on => commandWord 0x0A 0 (bitByte on)
  | .close => commandWord 0x0B 0 0

/-- The opcode number of a command (30_encoding.md R60). -/
def opcodeOf : Instr → Byte
  | .init => 0x01
  | .clear => 0x02
  | .home => 0x03
  | .cursorBlink _ => 0x04
  | .cursorVisible _ => 0x05
  | .displayOn _ => 0x06
  | .moveLeft _ => 0x07
  | .setCursor _ _ => 0x08
  | .printChar _ => 0x09
  | .backlight _ => 0x0A
  | .close => 0x0B

/-- A table word as the one command word it is: every command is exactly one 32-bit word (30_encoding.md R59), and bits above
`nbits` are 0. -/
def tableWord (nbits w : Nat) : Word := BitVec.ofNat 32 (w % 2 ^ nbits)

/-- The command the decoder reads from a table word, none where it refuses. -/
def decodeTableWord (nbits w : Nat) : Option Instr := (decode (tableWord nbits w)).toOption

end Sys2Proof
end

