-- ==== Sys2Proof/Config.lean ====
section
/-! DEFINITION. What one build of the block fixes and the spec leaves open, and the free values. No constant here has a
body that a proof can see: a theorem about the model holds whatever they are (00_scope.md R7, R8; 93_implementation_defined.md
U1 to U4). -/

namespace Sys2Proof.Config

/-- `W_SHORT - 1`, open (log entry 1). -/
opaque wShortExtra : Nat

/-- `W_SETTLE - W_SHORT - 1`, open (log entry 1). -/
opaque wSettleExtra : Nat

/-- `W_CLEAR - W_SETTLE - 1`, open (log entry 1). -/
opaque wClearExtra : Nat

/-- `W_SHORT`, the setup delay and the E-high time, in CLK cycles (00_scope.md R7). Written over an open excess so that the
values it can have are exactly those R7 allows. -/
def wShort : Nat := wShortExtra + 1

/-- `W_SETTLE`, the settle delay after every enable pulse, in CLK cycles (00_scope.md R7). -/
def wSettle : Nat := wShort + 1 + wSettleExtra

/-- `W_CLEAR`, the extra wait after Clear, in CLK cycles (00_scope.md R7). -/
def wClear : Nat := wSettle + 1 + wClearExtra

/-- `1 <= W_SHORT < W_SETTLE < W_CLEAR`, all that may be assumed of the delays (00_scope.md R7, 70_reset_and_hazards.md
R138). -/
theorem delays_ordered : 1 ≤ wShort ∧ wShort < wSettle ∧ wSettle < wClear := by
  unfold wClear wSettle wShort
  omega

/-- The level of the input PINCTL_OK in a cycle that the host's script says nothing about: a free draw, a fresh one for each
index (00_scope.md R8, 93_implementation_defined.md U3; log entry 2). -/
opaque pinctlOk : Nat → Bool

/-- HRDATA in a cycle with HWE = HRE = 1: "any value" (20_memory.md R41, 93_implementation_defined.md U4; log entry 3). -/
opaque hrdataBoth : Nat → Word

/-- The host-side glyph lookup, an uninterpreted parameter and no part of the block (00_scope.md R8, U1; log entry 10). -/
opaque encode : Char → Byte

end Sys2Proof.Config
end

