-- ==== Sys2Proof/Machine/State.lean ====
section
/-! DEFINITION. The state of the block as plain data, all of it (10_state.md R14), with the host's coming actions beside it,
and the state after reset (10_state.md R40). -/

namespace Sys2Proof.Machine

/-- The init state machine (10_state.md R24). It has three states; STATUS.STATE's value 3 "is never produced". -/
inductive InitState where
  | unconfigured
  | initializing
  | ready
  deriving DecidableEq, Repr

/-- The five errors (60_exceptions.md R106), each a sticky STATUS bit. -/
inductive ErrorCode where
  /-- Code 8: INIT finds CONFIG invalid (60_exceptions.md R108). -/
  | cfgErr
  /-- Code 9: INIT finds PINCTL_OK = 0 (60_exceptions.md R109). -/
  | resErr
  /-- Code 10: an illegal command word (60_exceptions.md R110). -/
  | cmdErr
  /-- Code 11: a command not legal in the current STATE (60_exceptions.md R111). -/
  | stErr
  /-- Code 12: CMD written while BUSY = 1 (60_exceptions.md R112). -/
  | ovr
  deriving DecidableEq, Repr

/-- The STATUS error bits (10_state.md R18, R21). -/
structure Errors where
  cfgErr : Bool
  resErr : Bool
  cmdErr : Bool
  stErr : Bool
  ovr : Bool
  deriving DecidableEq, Repr

/-- The fields of CONFIG (10_state.md R22) and of the active configuration latch ACFG (10_state.md R32). `font` is true for
5×11 dots, `width` is true for the 8-bit interface. -/
structure CfgFields where
  rows : BitVec 2
  font : Bool
  width : Bool
  cols : BitVec 8
  dlcnt : BitVec 4
  deriving DecidableEq, Repr

/-- The instruction-mask table (10_state.md R25): entry-mode, display-control, display-shift, function-set. -/
structure MaskTable where
  em : Byte
  dc : Byte
  ds : Byte
  fs : Byte
  deriving DecidableEq, Repr

/-- The output latches and the shared output-enable of the pads (10_state.md R33). -/
structure Pads where
  rs : Bool
  e : Bool
  bl : Bool
  dl : Byte
  oe : Bool
  deriving DecidableEq, Repr

/-- The output pads (10_state.md R33); `dl i` is DL[i]. -/
inductive Pad where
  | rs
  | e
  | bl
  | dl (i : Fin 8)
  deriving DecidableEq, Repr

/-- What a pad puts on its pin: nothing, or a level (10_state.md R33). -/
inductive PadLevel where
  | highZ
  | driven (level : Bool)
  deriving DecidableEq, Repr

/-- The three delays a `Wait` names: T_SHORT, T_SETTLE, T_CLEAR (00_scope.md R12). -/
inductive Delay where
  | short
  | settle
  | clear
  deriving DecidableEq, Repr

/-- The action alphabet: "Everything the block does to its pins is one of these actions" (00_scope.md R12). -/
inductive Action where
  | setBus (rs : Bool) (d : Byte)
  | setE (v : Bool)
  | setBL (v : Bool)
  | setOE (v : Bool)
  | allLow
  | wait (t : Delay)
  deriving DecidableEq, Repr

/-- The eight host registers (20_memory.md R42). -/
inductive HostReg where
  | cmd
  | status
  | config
  | maskEm
  | maskDc
  | maskDs
  | maskFs
  | pins
  deriving DecidableEq, Repr

/-- The block's inputs in one CLK cycle (10_state.md R35, 20_memory.md R41). `rstN` is the level of the active-low RST_N. -/
structure HostPins where
  rstN : Bool
  hwe : Bool
  hre : Bool
  haddr : BitVec 3
  hwdata : Word
  pinctlOk : Bool
  deriving DecidableEq, Repr

/-- One entry of the host's script (log entry 5). -/
inductive HostAction where
  /-- Drive these inputs for one cycle. -/
  | drive (p : HostPins)
  /-- WAIT_IDLE (30_encoding.md R75): read STATUS every cycle until the value read has BUSY = 0, PINCTL_OK being as given. -/
  | waitIdle (pinctlOk : Bool)
  deriving DecidableEq, Repr

/-- The state at the start of one CLK cycle. The fields from `initState` to `repeatLeft` are the spec's (10_state.md R14); the
last three are the model's own (log entries 3, 4, 5). BUSY and PINS are derived from them (10_state.md R20, R34). -/
structure State where
  /-- STATUS.STATE (10_state.md R19, R24). -/
  initState : InitState
  /-- The STATUS error bits (10_state.md R18, R21). -/
  errors : Errors
  /-- CONFIG, the staging register (10_state.md R22, R23). -/
  config : CfgFields
  /-- ACFG, the active configuration latch, hidden (10_state.md R32). -/
  acfg : CfgFields
  /-- The mask table; all zero while unseeded (10_state.md R25 to R31). -/
  masks : MaskTable
  /-- The output latches and OE (10_state.md R33). -/
  pads : Pads
  /-- The action being carried out (10_state.md R36). -/
  current : Option Action
  /-- The actions of the command in progress after the current one (10_state.md R16, R36). -/
  queue : List Action
  /-- The wait counter (10_state.md R38). -/
  waitCount : Nat
  /-- MOVE_LEFT's repeat counter: the writes still to emit (10_state.md R36, 41_protocol_ops.md R93). -/
  repeatLeft : Nat
  /-- What HRDATA gave in the last cycle, none when no read was answered (20_memory.md R41, R43; log entry 4). -/
  hrdata : Option Word
  /-- What the host does from this cycle on, the head being this cycle's (log entry 5). -/
  host : List HostAction
  /-- The index of the next free value (log entry 3). -/
  draws : Nat
  deriving DecidableEq, Repr

/-- Why a step could stop with a fault. NO CONSTRUCTOR: the block has no trap, every error is a STATUS bit, and nothing can fail
after a command is accepted (60_exceptions.md R107, R113, R118). Nobody raises a fault; the absence is safe, being proved of
every state. -/
inductive Fault where
  deriving DecidableEq, Repr

/-- Why a step could be refused. -/
inductive Refusal where
  /-- The instruction has no meaning in the model. No arm of `exec` answers it (every command is modelled), so nobody raises it;
  were one to, it would be safe. -/
  | notModelled (mnemonic : String)
  deriving DecidableEq, Repr

/-- Every field 0: CONFIG and ACFG after reset, and ACFG after CLOSE (10_state.md R32, R40). -/
def CfgFields.zero : CfgFields := { rows := 0, font := false, width := false, cols := 0, dlcnt := 0 }

/-- No error bit set (10_state.md R40). -/
def Errors.none : Errors := { cfgErr := false, resErr := false, cmdErr := false, stErr := false, ovr := false }

/-- The unseeded mask table: each register reads 0x00000000 (10_state.md R31, R40). -/
def MaskTable.unseeded : MaskTable := { em := 0, dc := 0, ds := 0, fs := 0 }

/-- The pads after reset: every latch 0, all pads high-impedance (10_state.md R40). -/
def Pads.reset : Pads := { rs := false, e := false, bl := false, dl := 0, oe := false }

/-- The machine right after reset (10_state.md R40). The last three fields are the model's own: no read answered yet, the host
says nothing, and the first free value comes next (log entries 3, 4, 5). -/
def State.reset : State :=
  { initState := .unconfigured
    errors := .none
    config := .zero
    acfg := .zero
    masks := .unseeded
    pads := .reset
    current := none
    queue := []
    waitCount := 0
    repeatLeft := 0
    hrdata := none
    host := []
    draws := 0 }

end Sys2Proof.Machine
end

