-- ==== Sys2Proof/Machine/BusWriter.lean ====
section
/-! DEFINITION. The bus writer: the enable pulse, the serializer W, what one action does and how long it takes, and what the pads
then put on their pins (40_bus_writer.md R77 to R82; 00_scope.md R7, R12; 10_state.md R33). -/

namespace Sys2Proof.Machine

/-- W_T, the length of a wait in CLK cycles (00_scope.md R7, R12). -/
def Delay.cycles : Delay → Nat
  | .short => Config.wShort
  | .settle => Config.wSettle
  | .clear => Config.wClear

/-- `PULSE` (40_bus_writer.md R81). -/
def pulse : List Action := [.wait .short, .setE true, .wait .short, .setE false, .wait .settle]

/-- One transfer: RS and the data lines change in one action, then an enable pulse latches them (40_bus_writer.md R77). -/
def transfer (sel : Bool) (d : Byte) : List Action := .setBus sel d :: pulse

/-- `zext_8(p[7:4])`, the high nibble on DL[3:0] with DL[7:4] driven 0 (40_bus_writer.md R77, R80). -/
def highNibble (p : Byte) : Byte := (p.extractLsb' 4 4).setWidth 8

/-- `zext_8(p[3:0])`, the low nibble on DL[3:0] with DL[7:4] driven 0 (40_bus_writer.md R77, R80). -/
def lowNibble (p : Byte) : Byte := (p.extractLsb' 0 4).setWidth 8

/-- `W(p, sel)` under ACFG.WIDTH: one transfer in 8-bit width, the high and then the low nibble in 4-bit width
(40_bus_writer.md R77 to R80). `sel` is true for a data write. -/
def busWrite (width : Bool) (p : Byte) (sel : Bool) : List Action :=
  if width then transfer sel p else transfer sel (highNibble p) ++ transfer sel (lowNibble p)

/-- The effect of an action on the outputs (the table of 00_scope.md R12). `AllLow` leaves OE as it is (42_lifecycle.md
R103). -/
def Action.apply : Action → Pads → Pads
  | .setBus rs d, p => { p with rs := rs, dl := d }
  | .setE v, p => { p with e := v }
  | .setBL v, p => { p with bl := v }
  | .setOE v, p => { p with oe := v }
  | .allLow, p => { p with rs := false, e := false, bl := false, dl := 0 }
  | .wait _, p => p

/-- The level a pad's output latch holds (10_state.md R33). -/
def Pads.latch (p : Pads) : Pad → Bool
  | .rs => p.rs
  | .e => p.e
  | .bl => p.bl
  | .dl i => p.dl.getLsbD i

/-- What a pad puts on its pin: "When OE = 0 every pad is high-impedance. When OE = 1 every pad drives its latch level."
(10_state.md R33). -/
def Pads.level (p : Pads) (q : Pad) : PadLevel := if p.oe then .driven (p.latch q) else .highZ

/-- What the wait counter loads when an action starts: W_T for `Wait(T)`; the other actions do not use it (10_state.md R38). -/
def Action.waitLoad : Action → Nat
  | .wait t => t.cycles
  | .setBus _ _ => 0
  | .setE _ => 0
  | .setBL _ => 0
  | .setOE _ => 0
  | .allLow => 0

/-- How many CLK cycles an action takes (00_scope.md R12). -/
def Action.duration : Action → Nat
  | .wait t => t.cycles
  | .setBus _ _ => 1
  | .setE _ => 1
  | .setBL _ => 1
  | .setOE _ => 1
  | .allLow => 1

end Sys2Proof.Machine
end

