-- ==== Sys2Proof/Machine/Flags.lean ====
section
/-! DEFINITION. The host's view of the registers as words: STATUS with its error bits and their write-1-to-clear, CONFIG with
its reserved bits, the masks, PINS (10_state.md R18 to R34). -/

namespace Sys2Proof.Machine

/-- The code of STATUS.STATE (10_state.md R18, R24). -/
def InitState.code : InitState → BitVec 2
  | .unconfigured => 0
  | .initializing => 1
  | .ready => 2

/-- Error bit E set, the others kept (10_state.md R21). -/
def Errors.set (e : Errors) : ErrorCode → Errors
  | .cfgErr => { e with cfgErr := true }
  | .resErr => { e with resErr := true }
  | .cmdErr => { e with cmdErr := true }
  | .stErr => { e with stErr := true }
  | .ovr => { e with ovr := true }

/-- Whether error bit E is set. -/
def Errors.get (e : Errors) : ErrorCode → Bool
  | .cfgErr => e.cfgErr
  | .resErr => e.resErr
  | .cmdErr => e.cmdErr
  | .stErr => e.stErr
  | .ovr => e.ovr

/-- The code of an error is the index of its STATUS bit (60_exceptions.md R106). -/
def ErrorCode.bit : ErrorCode → Nat
  | .cfgErr => 8
  | .resErr => 9
  | .cmdErr => 10
  | .stErr => 11
  | .ovr => 12

/-- A host write of v to STATUS clears each error bit whose bit of v is 1 (10_state.md R18, 20_memory.md R44). -/
def Errors.w1c (e : Errors) (v : Word) : Errors :=
  { cfgErr := e.cfgErr && !v.getLsbD 8
    resErr := e.resErr && !v.getLsbD 9
    cmdErr := e.cmdErr && !v.getLsbD 10
    stErr := e.stErr && !v.getLsbD 11
    ovr := e.ovr && !v.getLsbD 12 }

/-- The word STATUS reads as: STATE [1:0], BUSY [2], the errors [12:8], the rest 0 (10_state.md R18). -/
def statusWord (st : InitState) (busy : Bool) (e : Errors) : Word :=
  (0 : BitVec 19) ++ BitVec.ofBool e.ovr ++ BitVec.ofBool e.stErr ++ BitVec.ofBool e.cmdErr ++ BitVec.ofBool e.resErr
    ++ BitVec.ofBool e.cfgErr ++ (0 : BitVec 5) ++ BitVec.ofBool busy ++ st.code

/-- The word CONFIG reads as: ROWS [1:0], FONT [3], WIDTH [4], COLS [15:8], DLCNT [19:16], the rest 0 (10_state.md R22). -/
def configWord (c : CfgFields) : Word :=
  (0 : BitVec 12) ++ c.dlcnt ++ c.cols ++ (0 : BitVec 3) ++ BitVec.ofBool c.width ++ BitVec.ofBool c.font ++ (0 : BitVec 1)
    ++ c.rows

/-- The fields a host write of v gives CONFIG; "The other bits of v are ignored" (20_memory.md R44). -/
def configFields (v : Word) : CfgFields :=
  { rows := v.extractLsb' 0 2
    font := v.getLsbD 3
    width := v.getLsbD 4
    cols := v.extractLsb' 8 8
    dlcnt := v.extractLsb' 16 4 }

/-- A mask register as the host reads it: {24'b0, value} (10_state.md R25). -/
def maskWord (m : Byte) : Word := (0 : BitVec 24) ++ m

/-- The word PINS reads as: RS [0], E [1], BL [2], OE [3], DL [15:8], the rest 0 (10_state.md R34). -/
def pinsWord (p : Pads) : Word :=
  (0 : BitVec 16) ++ p.dl ++ (0 : BitVec 4) ++ BitVec.ofBool p.oe ++ BitVec.ofBool p.bl ++ BitVec.ofBool p.e
    ++ BitVec.ofBool p.rs

end Sys2Proof.Machine
end

