-- ==== Sys2Proof/Machine/Operands.lean ====
section
/-! DEFINITION. What the commands compute from their operands and from the configuration: the configuration check, the constant
table of controller bytes and masks, the display-control update and the set-address byte (30_encoding.md R65 to R72;
42_lifecycle.md R98, R100). -/

namespace Sys2Proof.Machine

/-- `CfgValid(c)` (42_lifecycle.md R98). -/
def CfgFields.valid (c : CfgFields) : Bool :=
  (c.rows == 1 || c.rows == 2)
    && (decide (1 ≤ c.cols.toNat) && decide (c.cols.toNat ≤ 40))
    && (!c.font || c.rows == 1)
    && (c.dlcnt == if c.width then 8 else 4)

/-! ### The controller bytes, one named constant table (92_eei_decisions.md D17; log entry 9) -/

/-- The Clear instruction byte (30_encoding.md R65). -/
def clearByte : Byte := 0x01

/-- The Home instruction byte (30_encoding.md R66). -/
def homeByte : Byte := 0x02

/-- The move-left byte, a constant and not a read of MASK.DS (30_encoding.md R69). -/
def moveLeftByte : Byte := 0x10

/-- MASK.EM when seeded (10_state.md R26). -/
def emSeed : Byte := 0x06

/-- MASK.DC when seeded (10_state.md R27). -/
def dcSeed : Byte := 0x0C

/-- MASK.DS when seeded (10_state.md R28). -/
def dsSeed : Byte := 0x10

/-- MASK.FS as seeded from ACFG, the function-set byte (10_state.md R29, 30_encoding.md R68, 42_lifecycle.md R100). -/
def fsSeed (c : CfgFields) : Byte :=
  0x20 ||| (bitByte c.width <<< 4) ||| (bitByte (c.rows == 2) <<< 3) ||| (bitByte c.font <<< 2)

/-- The seeded table: `Seed()` of 42_lifecycle.md R100. -/
def MaskTable.seeded (c : CfgFields) : MaskTable := { em := emSeed, dc := dcSeed, ds := dsSeed, fs := fsSeed c }

/-- Bit k of a display-control byte set to `on`, every other bit kept (10_state.md R27, R30). -/
def setMaskBit (k : Nat) (on : Bool) (m : Byte) : Byte :=
  if on then m ||| ((1 : Byte) <<< k) else m &&& ~~~((1 : Byte) <<< k)

/-- The bit index of B, cursor blink, in MASK.DC (10_state.md R27). -/
def dcBlink : Nat := 0

/-- The bit index of C, cursor visible, in MASK.DC (10_state.md R27). -/
def dcCursor : Nat := 1

/-- The bit index of D, display on, in MASK.DC (10_state.md R27). -/
def dcDisplay : Nat := 2

/-- Whether SET_CURSOR acts: row < ACFG.ROWS and col < ACFG.COLS (41_protocol_ops.md R94, 90_conflicts.md C1). -/
def CfgFields.inRange (c : CfgFields) (row col : Nat) : Bool :=
  decide (row < c.rows.toNat) && decide (col < c.cols.toNat)

/-- The set-address byte `0x80 | (0x40 * row + col)` (30_encoding.md R70). -/
def setAddressByte (row col : Nat) : Byte := 0x80 ||| BitVec.ofNat 8 (0x40 * row + col)

end Sys2Proof.Machine
end

