-- ==== Sys2Proof/Machine/Ops.lean ====
section
/-! DEFINITION. The named operations over State: the inputs of this cycle, BUSY, raising an error (the block's one way of taking
an exception), the guard every command passes, loading the action queue, seeding and teardown. -/

namespace Sys2Proof.Machine

/-- The outcome of an access or of a command. -/
abbrev Result := Host.Outcome State Fault Refusal

/-- What is done after an outcome, where it is a next state. -/
def onNext (o : Result) (f : State → State) : Result :=
  match o with
  | .next s => .next (f s)
  | .fault r => .fault r
  | .refused r => .refused r

/-! ### The host's inputs (10_state.md R35, 20_memory.md R41) -/

/-- The index of a host register (20_memory.md R42). -/
def HostReg.index : HostReg → BitVec 3
  | .cmd => 0
  | .status => 1
  | .config => 2
  | .maskEm => 3
  | .maskDc => 4
  | .maskDs => 5
  | .maskFs => 6
  | .pins => 7

/-- The register at an index: "Every index is mapped" (20_memory.md R42). -/
def HostReg.ofIndex (i : BitVec 3) : HostReg :=
  match i.toNat with
  | 0 => .cmd
  | 1 => .status
  | 2 => .config
  | 3 => .maskEm
  | 4 => .maskDc
  | 5 => .maskDs
  | 6 => .maskFs
  | _ => .pins

/-- A cycle out of reset with no transaction: `Idle` (20_memory.md R41). -/
def HostPins.idle (pinctlOk : Bool) : HostPins :=
  { rstN := true, hwe := false, hre := false, haddr := 0, hwdata := 0, pinctlOk := pinctlOk }

/-- A cycle out of reset with `Read(r)` (20_memory.md R41). -/
def HostPins.read (r : HostReg) (pinctlOk : Bool) : HostPins :=
  { rstN := true, hwe := false, hre := true, haddr := r.index, hwdata := 0, pinctlOk := pinctlOk }

/-- A cycle out of reset with `Write(r, v)` (20_memory.md R41). -/
def HostPins.write (r : HostReg) (v : Word) (pinctlOk : Bool) : HostPins :=
  { rstN := true, hwe := true, hre := false, haddr := r.index, hwdata := v, pinctlOk := pinctlOk }

/-- A cycle with RST_N = 0 and nothing else driven (70_reset_and_hazards.md R126). -/
def HostPins.resetting : HostPins :=
  { rstN := false, hwe := false, hre := false, haddr := 0, hwdata := 0, pinctlOk := false }

/-- The inputs of this cycle: what the host's script drives; where it has ended, an idle bus out of reset with a free
PINCTL_OK (log entries 2, 5). -/
def State.pins (s : State) : HostPins :=
  match s.host with
  | [] => .idle (Config.pinctlOk s.draws)
  | .drive p :: _ => p
  | .waitIdle ok :: _ => .read .status ok

/-- PINCTL_OK in this cycle (00_scope.md R8). -/
def State.pinctlOk (s : State) : Bool := s.pins.pinctlOk

/-! ### BUSY and the action queue -/

/-- STATUS.BUSY: an action is in progress or the command's queue is not empty, the writes that MOVE_LEFT's repeat counter has
still to emit being in it (10_state.md R18, R20, R36; log entry 8). -/
def State.busy (s : State) : Bool := s.current.isSome || !s.queue.isEmpty || s.repeatLeft != 0

/-- The actions that the command in progress has still to complete, in order: the current one, the queue, and the writes of
MOVE_LEFT's repeat counter (10_state.md R36: "the queue that results is the same as emitting the n writes at acceptance"). -/
def State.pending (s : State) : List Action :=
  s.current.toList ++ s.queue
    ++ (List.replicate s.repeatLeft (busWrite s.acfg.width moveLeftByte false)).flatten

/-- The sequencer given a list of actions: the first starts, the others queue; with none it is idle (10_state.md R16, R36;
20_memory.md R51). -/
def State.load (acts : List Action) (s : State) : State :=
  match acts with
  | [] => { s with current := none, queue := [], waitCount := 0 }
  | a :: rest => { s with current := some a, queue := rest, waitCount := a.waitLoad }

/-- n writes of the move-left byte: one is emitted, the repeat counter keeps the others (10_state.md R36, 41_protocol_ops.md
R93). -/
def State.startMoves (n : Nat) (s : State) : State :=
  match n with
  | 0 => ({ s with repeatLeft := 0 }).load []
  | k + 1 => ({ s with repeatLeft := k }).load (busWrite s.acfg.width moveLeftByte false)

/-! ### Errors: the block's one way of taking an exception (60_exceptions.md R107, R118) -/

/-- `raise E`: the error's STATUS bit is set and nothing else changes. There is no trap entry: nothing is saved, no mode
changes, and nothing is redirected (60_exceptions.md R107, R115, R118). There is no return from it either. -/
def State.raise (e : ErrorCode) (s : State) : State := { s with errors := s.errors.set e }

/-! ### The guards of a command (60_exceptions.md R111, R114) -/

/-- The checks every command passes before its rule: OVR while BUSY = 1, then STERR where STATE is not the one that allows
its opcode (60_exceptions.md R111, R112, R114). While INITIALIZING no command is allowed. -/
def State.guarded (allowed : InitState) (s : State) (body : State → Result) : Result :=
  if s.busy then .next (s.raise .ovr)
  else if s.initState ≠ allowed then .next (s.raise .stErr)
  else body s

/-- A runtime command: accepted only with BUSY = 0 and STATE = READY (41_protocol_ops.md R87). -/
def State.runtime (s : State) (body : State → State) : Result := s.guarded .ready (fun t => .next (body t))

/-- The bus write `W(p, sel)` as the whole queue of a command, followed by `more` (40_bus_writer.md R77). -/
def State.write (p : Byte) (sel : Bool) (more : List Action) (s : State) : State :=
  s.load (busWrite s.acfg.width p sel ++ more)

/-- Bit k of MASK.DC set to `on`, and the updated byte sent as an instruction (41_protocol_ops.md R90 to R92). -/
def State.toggle (k : Nat) (on : Bool) (s : State) : State :=
  let dc := setMaskBit k on s.masks.dc
  ({ s with masks := { s.masks with dc := dc } }).write dc false []

/-! ### Initialization and teardown (42_lifecycle.md) -/

/-- The action sequence of INIT after its checks (42_lifecycle.md R99, R101). -/
def initActions (width : Bool) (m : MaskTable) : List Action :=
  [.setOE true]
    ++ busWrite width m.fs false ++ [.wait .settle]
    ++ busWrite width m.dc false ++ [.wait .settle]
    ++ busWrite width clearByte false ++ [.wait .clear]

/-- What INIT does once its checks have passed: latch ACFG, seed the masks, go INITIALIZING, emit the sequence (42_lifecycle.md
R99, R100). -/
def State.begin (s : State) : State :=
  let m := MaskTable.seeded s.config
  ({ s with acfg := s.config, masks := m, initState := .initializing }).load (initActions s.config.width m)

/-- What completing CLOSE's AllLow does beside the pads: UNCONFIGURED, unseeded, ACFG 0 (42_lifecycle.md R103). -/
def State.teardown (s : State) : State :=
  { s with initState := .unconfigured, masks := .unseeded, acfg := .zero }

/-- Every piece of the block's state at its reset value, the host's script and the free-value index going on
(70_reset_and_hazards.md R126, 10_state.md R40). -/
def State.resetBlock (s : State) : State := { State.reset with host := s.host, draws := s.draws }

end Sys2Proof.Machine
end

