-- ==== Sys2Proof/Machine/Lifecycle.lean ====
section
/-! DEFINITION. INIT and CLOSE: what a CMD write of the command does in its cycle (42_lifecycle.md R98 to R105). -/

namespace Sys2Proof.Machine

/-- INIT (42_lifecycle.md R99): CFGERR where CONFIG is not valid, then RESERR where PINCTL_OK = 0, else the init sequence
begins. -/
def execInit (s : State) : Result :=
  s.guarded .unconfigured fun t =>
    if t.config.valid = false then .next (t.raise .cfgErr)
    else if t.pinctlOk = false then .next (t.raise .resErr)
    else .next t.begin

/-- CLOSE (42_lifecycle.md R103): AllLow is emitted; the teardown comes when it completes. -/
def execClose (s : State) : Result := s.runtime (State.load [.allLow])

end Sys2Proof.Machine
end

