-- ==== Sys2Proof/Machine/Protocol.lean ====
section
/-! DEFINITION. The runtime commands, one meaning each: what a CMD write of the command does in its cycle
(41_protocol_ops.md R87 to R97). -/

namespace Sys2Proof.Machine

/-- CLEAR (41_protocol_ops.md R88): W(0x01, 0), then the long settle. -/
def execClear (s : State) : Result := s.runtime (State.write clearByte false [.wait .clear])

/-- HOME (41_protocol_ops.md R89): W(0x02, 0), the standard settle only. -/
def execHome (s : State) : Result := s.runtime (State.write homeByte false [])

/-- CURSOR_BLINK (41_protocol_ops.md R90): MASK.DC.B <- on, and the updated byte is sent. -/
def execCursorBlink (on : Bool) (s : State) : Result := s.runtime (State.toggle dcBlink on)

/-- CURSOR_VISIBLE (41_protocol_ops.md R91): MASK.DC.C <- on, and the updated byte is sent. -/
def execCursorVisible (on : Bool) (s : State) : Result := s.runtime (State.toggle dcCursor on)

/-- DISPLAY_ON (41_protocol_ops.md R92): MASK.DC.D <- on, and the updated byte is sent. -/
def execDisplayOn (on : Bool) (s : State) : Result := s.runtime (State.toggle dcDisplay on)

/-- MOVE_LEFT (41_protocol_ops.md R93): n writes of 0x10; n = 0 emits nothing. -/
def execMoveLeft (n : Nat) (s : State) : Result := s.runtime (State.startMoves n)

/-- SET_CURSOR (41_protocol_ops.md R94): out of range it is silently ignored, else the set-address byte is sent. -/
def execSetCursor (row col : Nat) (s : State) : Result :=
  s.runtime fun t => if t.acfg.inRange row col then t.write (setAddressByte row col) false [] else t

/-- PRINT_CHAR (41_protocol_ops.md R95): the glyph code is sent as a data write. -/
def execPrintChar (g : Byte) (s : State) : Result := s.runtime (State.write g true [])

/-- BACKLIGHT (41_protocol_ops.md R96): one SetBL, not through W. -/
def execBacklight (on : Bool) (s : State) : Result := s.runtime (State.load [.setBL on])

end Sys2Proof.Machine
end

