-- ==== Sys2Proof/Machine/Dispatch.lean ====
section
/-! DEFINITION. The dispatch on the opcode (60_exceptions.md R114): one arm per command. -/

namespace Sys2Proof.Machine

def exec (i : Instr) (s : State) : Host.Outcome State Fault Refusal :=
  match i with
  | .init => Sys2Proof.Machine.execInit s
  | .clear => Sys2Proof.Machine.execClear s
  | .home => Sys2Proof.Machine.execHome s
  | .cursorBlink on => Sys2Proof.Machine.execCursorBlink on s
  | .cursorVisible on => Sys2Proof.Machine.execCursorVisible on s
  | .displayOn on => Sys2Proof.Machine.execDisplayOn on s
  | .moveLeft n => Sys2Proof.Machine.execMoveLeft n s
  | .setCursor row col => Sys2Proof.Machine.execSetCursor row col s
  | .printChar g => Sys2Proof.Machine.execPrintChar g s
  | .backlight on => Sys2Proof.Machine.execBacklight on s
  | .close => Sys2Proof.Machine.execClose s

end Sys2Proof.Machine
end

