-- ==== Sys2Proof/Machine/Sequencer.lean ====
section
/-! DEFINITION. The sequencer: one CLK cycle of the command in progress (10_state.md R16, R24, R36, R38; 00_scope.md R12). -/

namespace Sys2Proof.Machine

/-- The next action starts; where the queue is empty, MOVE_LEFT's repeat counter gives its next write, and with nothing left
the command has ended (10_state.md R16, R36). -/
def State.advance (s : State) : State :=
  match s.queue with
  | [] => s.startMoves s.repeatLeft
  | a :: rest => s.load (a :: rest)

/-- CLOSE's teardown, when the completed action is AllLow (42_lifecycle.md R103). Only CLOSE emits AllLow. -/
def State.afterAction (a : Action) (s : State) : State := if a = .allLow then s.teardown else s

/-- INITIALIZING ends in READY when the last action of the INIT queue has completed (10_state.md R24, 42_lifecycle.md R99). -/
def State.settleInit (s : State) : State :=
  if s.initState = .initializing ∧ s.busy = false then { s with initState := .ready } else s

/-- The current action a completes in this cycle: its effect on the outputs, then what its completion brings. -/
def State.complete (a : Action) (s : State) : State :=
  ((({ s with pads := a.apply s.pads }).afterAction a).advance).settleInit

/-- One cycle of the sequencer: a wait counts down and completes in the cycle its counter reaches 0; every other action
completes in its one cycle (10_state.md R38, 00_scope.md R12). -/
def State.seqCycle (s : State) : State :=
  match s.current with
  | none => s.advance
  | some a => if s.waitCount ≤ 1 then s.complete a else { s with waitCount := s.waitCount - 1 }

end Sys2Proof.Machine
end

