-- ==== Sys2Proof/Machine/HostBus.lean ====
section
/-! DEFINITION. The host bus: reads and writes of the eight registers, the handling of a CMD write, and one whole CLK cycle
(20_memory.md R41 to R51; 60_exceptions.md R114; 70_reset_and_hazards.md R126). -/

namespace Sys2Proof.Machine

/-- `HostRead(r)`: the value register r holds in this cycle (20_memory.md R43; 10_state.md R17, R18, R22, R25, R34). -/
def State.hostRead (s : State) : HostReg → Word
  | .cmd => 0
  | .status => statusWord s.initState s.busy s.errors
  | .config => configWord s.config
  | .maskEm => maskWord s.masks.em
  | .maskDc => maskWord s.masks.dc
  | .maskDs => maskWord s.masks.ds
  | .maskFs => maskWord s.masks.fs
  | .pins => pinsWord s.pads

/-- `HandleCmd(v)`: OVR, then CMDERR, then the rule of the opcode with its own state check (60_exceptions.md R114). While
BUSY = 1 the word is discarded without being decoded (60_exceptions.md R112). -/
def State.handleCmd (v : Word) (s : State) : Result :=
  if s.busy then .next (s.raise .ovr)
  else match decode v with
    | .error _ => .next (s.raise .cmdErr)
    | .ok i => exec i s

/-- `HostWrite(r, v)` (20_memory.md R44). -/
def State.hostWrite (r : HostReg) (v : Word) (s : State) : Result :=
  match r with
  | .cmd => s.handleCmd v
  | .status => .next { s with errors := s.errors.w1c v }
  | .config => .next { s with config := configFields v }
  | .maskEm => .next s
  | .maskDc => .next s
  | .maskDs => .next s
  | .maskFs => .next s
  | .pins => .next s

/-- What HRDATA gives in this cycle: the register read; any value where the cycle also writes; nothing where there is no read
(20_memory.md R41, R43; log entries 3, 4). -/
def State.readData (s : State) : Option Word :=
  if s.pins.hre then
    if s.pins.hwe then some (Config.hrdataBoth s.draws) else some (s.hostRead (.ofIndex s.pins.haddr))
  else none

/-- The write of this cycle, if there is one: "If HWE and HRE are both 1 in one cycle, the write is performed" (20_memory.md
R41). -/
def State.access (s : State) : Result :=
  if s.pins.hwe then s.hostWrite (.ofIndex s.pins.haddr) s.pins.hwdata else .next s

/-- The host's script after this cycle. WAIT_IDLE stays until the STATUS value it reads has bit 2 (BUSY) = 0 (30_encoding.md
R75). -/
def State.hostAfter (s : State) : List HostAction :=
  match s.host with
  | [] => []
  | .drive _ :: rest => rest
  | .waitIdle ok :: rest => if (s.hostRead .status).getLsbD 2 then .waitIdle ok :: rest else rest

/-- The environment's part of the end of a cycle that began in s: the read data, the script and the free-value index go on. -/
def State.endCycle (s : State) (read : Option Word) (t : State) : State :=
  { t with hrdata := read, host := s.hostAfter, draws := s.draws + 1 }

/-- One CLK cycle. With RST_N = 0 every piece of state takes its reset value and the host's access is ignored
(70_reset_and_hazards.md R126). Otherwise the host's access and the sequencer act on the state at the start of the cycle; the
sequencer runs only where BUSY = 1 in this cycle, so a command accepted now starts in the next one (20_memory.md R51). -/
def State.cycle (s : State) : Result :=
  if s.pins.rstN then
    onNext s.access fun t => s.endCycle s.readData (if s.busy then t.seqCycle else t)
  else .next (s.endCycle none s.resetBlock)

end Sys2Proof.Machine
end

