-- ==== Sys2Proof/Machine/Step.lean ====
section
/-! DEFINITION. The step: one CLK cycle (10_state.md R35), and how the host's interface places a command. -/

namespace Sys2Proof.Machine

/-- One step of the machine is one CLK cycle (10_state.md R35; log entry 6). -/
def step (s : State) : Host.Outcome State Fault Refusal := s.cycle

/-- s with a `WR CMD, word` as what the host does next: the block fetches nothing, and a command is the word the host writes to
CMD (10_state.md R16, 20_memory.md R55). PINCTL_OK keeps the level it has in this cycle; the host's other coming actions
follow (log entry 5). -/
def State.withFetchWord (s : State) (nbits w : Nat) : State :=
  { s with host := .drive (.write .cmd (tableWord nbits w) s.pinctlOk) :: s.host }

end Sys2Proof.Machine
end

