-- ==== Sys2Proof/Machine/HostAsm.lean ====
section
/-! DEFINITION. The host's side: the assembly syntax of register accesses and commands, and the pseudo-instructions, as the
host actions they expand to (30_encoding.md R73 to R75). No part of the block: it says what a host program puts on the bus. -/

namespace Sys2Proof.Machine

/-- `WR reg, value` (30_encoding.md R74), PINCTL_OK being as given in that cycle. -/
def asmWr (ok : Bool) (r : HostReg) (v : Word) : HostAction := .drive (.write r v ok)

/-- `RD reg` (30_encoding.md R74). -/
def asmRd (ok : Bool) (r : HostReg) : HostAction := .drive (.read r ok)

/-- `RD reg == value`: the check a test program makes on the value read (30_encoding.md R74). -/
def rdChecks (v : Word) (s : State) : Bool := s.hrdata == some v

/-- A command mnemonic assembles to one `WR CMD, word`; an operand out of its range is an assembly error, here none
(30_encoding.md R73). -/
def asmCommand (ok : Bool) (i : Instr) : Option HostAction :=
  if i.WellFormed then some (asmWr ok .cmd (encode i)) else none

/-- `WAIT_IDLE` (30_encoding.md R75). -/
def asmWaitIdle (ok : Bool) : HostAction := .waitIdle ok

/-- The word `SETCFG rows, cols, font, width, dlcnt` writes to CONFIG: `rows | (f << 3) | (w << 4) | (cols << 8) | (dlcnt << 16)`
(30_encoding.md R75). `font` is true for 5x11, `width` for 8. -/
def setCfgWord (rows cols : Nat) (font width : Bool) (dlcnt : Nat) : Word :=
  BitVec.ofNat 32 rows ||| (BitVec.ofNat 32 font.toNat <<< 3) ||| (BitVec.ofNat 32 width.toNat <<< 4)
    ||| (BitVec.ofNat 32 cols <<< 8) ||| (BitVec.ofNat 32 dlcnt <<< 16)

/-- `SETCFG` (30_encoding.md R75). -/
def asmSetCfg (ok : Bool) (rows cols : Nat) (font width : Bool) (dlcnt : Nat) : HostAction :=
  asmWr ok .config (setCfgWord rows cols font width dlcnt)

/-- `PRINT "text"`: for each character from left to right, WAIT_IDLE and then PRINT_CHAR of its glyph code (30_encoding.md
R75). -/
def asmPrint (ok : Bool) (text : List Char) : List HostAction :=
  text.flatMap fun c => [.waitIdle ok, asmWr ok .cmd (encode (.printChar (Config.encode c)))]

/-- The counts of the MOVE_LEFT commands that `MOVE_LEFT n` becomes: for n > 255, floor(n / 255) times 255 and then n mod 255 if
that is not 0; for 0 <= n <= 255 the one command; for a negative n nothing (30_encoding.md R75). With n = 0 the syntax of R73
is one command and R75's pseudo-instruction is nothing; the pseudo-instruction is followed here (log entry 11). -/
def moveLeftCounts (n : Int) : List Nat :=
  if n ≤ 0 then []
  else if n ≤ 255 then [n.toNat]
  else List.replicate (n.toNat / 255) 255 ++ (if n.toNat % 255 = 0 then [] else [n.toNat % 255])

/-- `MOVE_LEFT n` for any integer n (30_encoding.md R75): above 255, WAIT_IDLE stands before each command. -/
def asmMoveLeft (ok : Bool) (n : Int) : List HostAction :=
  (moveLeftCounts n).flatMap fun k =>
    (if n ≤ 255 then [] else [.waitIdle ok]) ++ [asmWr ok .cmd (encode (.moveLeft k))]

end Sys2Proof.Machine
end

