-- ==== Sys2Proof/Safety.lean ====
section
/-! DEFINITION. The terms that claims about the block are stated in: runs of several cycles, the cycles and the pad levels a
command still has ahead of it, and the invariant of the block. -/

namespace Sys2Proof.Machine

/-! ### Runs -/

/-- The state after k cycles, none where a step stops. -/
def State.after : Nat → State → Option State
  | 0, s => some s
  | k + 1, s =>
    match step s with
    | .next t => t.after k
    | .fault _ => none
    | .refused _ => none

/-- The host keeps RST_N = 1 in this entry of its script. -/
def HostAction.outOfReset : HostAction → Bool
  | .drive p => p.rstN
  | .waitIdle _ => true

/-- The host's script never drives RST_N = 0. -/
def State.NoReset (s : State) : Prop := ∀ a ∈ s.host, a.outOfReset = true

/-- t is s but for the sequencer's own state (the current action, the queue and the two counters). -/
structure State.SameButSequencer (s t : State) : Prop where
  initState : t.initState = s.initState
  errors : t.errors = s.errors
  config : t.config = s.config
  acfg : t.acfg = s.acfg
  masks : t.masks = s.masks
  pads : t.pads = s.pads
  hrdata : t.hrdata = s.hrdata
  host : t.host = s.host
  draws : t.draws = s.draws

/-- What the CMD write of a word does where it is not accepted, the word being legal or not and its opcode needing the STATE
`allowed` (60_exceptions.md R107, R110 to R112, R114). -/
structure State.RejectsCommand (s : State) (v : Word) (legal : Prop) (allowed : InitState) : Prop where
  busy : s.busy = true → s.handleCmd v = .next { s with errors := { s.errors with ovr := true } }
  illegal : s.busy = false → ¬legal → s.handleCmd v = .next { s with errors := { s.errors with cmdErr := true } }
  state : s.busy = false → legal → s.initState ≠ allowed →
    s.handleCmd v = .next { s with errors := { s.errors with stErr := true } }

/-! ### What a command has still ahead of it -/

/-- How many cycles a list of actions takes (00_scope.md R12). -/
def actionsDuration (acts : List Action) : Nat := (acts.map Action.duration).sum

/-- How many cycles the current action still takes, `count` being the wait counter (10_state.md R38, 00_scope.md R12). -/
def Action.cyclesLeft : Action → Nat → Nat
  | .wait _, count => count
  | .setBus _ _, _ => 1
  | .setE _, _ => 1
  | .setBL _, _ => 1
  | .setOE _, _ => 1
  | .allLow, _ => 1

/-- How many cycles the command in progress still takes, this one among them. -/
def State.remaining (s : State) : Nat :=
  match s.current with
  | none => 0
  | some a =>
    a.cyclesLeft s.waitCount + actionsDuration s.queue
      + s.repeatLeft * actionsDuration (busWrite s.acfg.width moveLeftByte false)

/-- The pads at the end of each cycle of a list of actions carried out one after the other from the levels p (00_scope.md R12):
a wait keeps them, every other action changes them in its one cycle. -/
def padTrace : Pads → List Action → List Pads
  | _, [] => []
  | p, a :: rest => List.replicate (a.duration - 1) p ++ a.apply p :: padTrace (a.apply p) rest

/-- The pads at the end of each cycle that the command in progress still takes. -/
def State.trace (s : State) : List Pads :=
  match s.current with
  | none => []
  | some a =>
    List.replicate (a.cyclesLeft s.waitCount - 1) s.pads
      ++ a.apply s.pads :: padTrace (a.apply s.pads) s.pending.tail

/-- `D_P`, `D_W8` and `D_W4` of 70_reset_and_hazards.md R136. -/
def pulseCycles : Nat := 2 + 2 * Config.wShort + Config.wSettle

/-- `D_W` of 70_reset_and_hazards.md R136, as ACFG.WIDTH selects. -/
def writeCycles (width : Bool) : Nat := if width then 1 + pulseCycles else 2 * (1 + pulseCycles)

/-! ### The invariant -/

/-- Where a list of actions stands with respect to an enable pulse (40_bus_writer.md R81). -/
inductive PulsePhase where
  /-- Outside a pulse, E low. -/
  | rest
  /-- After a SetBus, before the setup wait. -/
  | setup
  /-- After the setup wait, before E rises. -/
  | armed
  /-- E high, before the E-high wait. -/
  | high
  /-- E high, before E falls. -/
  | drop
  /-- E has fallen, before the settle wait. -/
  | fallen
  deriving DecidableEq, Repr

/-- The phase after an action that the phase allows, none for one it does not. -/
def PulsePhase.next : PulsePhase → Action → Option PulsePhase
  | .rest, .setBus _ _ => some .setup
  | .rest, .setBL _ => some .rest
  | .rest, .setOE true => some .rest
  | .rest, .allLow => some .rest
  | .rest, .wait .settle => some .rest
  | .rest, .wait .clear => some .rest
  | .setup, .wait .short => some .armed
  | .armed, .setE true => some .high
  | .high, .wait .short => some .drop
  | .drop, .setE false => some .fallen
  | .fallen, .wait .settle => some .rest
  | _, _ => none

/-- The actions run from this phase, each pulse whole, and end outside a pulse. -/
def PulsePhase.runs : PulsePhase → List Action → Bool
  | p, [] => decide (p = .rest)
  | p, a :: later =>
    match p.next a with
    | some q => q.runs later
    | none => false

/-- The phases with E high. -/
def PulsePhase.eHigh : PulsePhase → Bool
  | .rest => false
  | .setup => false
  | .armed => false
  | .high => true
  | .drop => true
  | .fallen => false

/-- The data lines an action drives, if it drives them, lie in DL[3:0] (40_bus_writer.md R80). -/
def Action.lowLines : Action → Bool
  | .setBus _ d => d &&& 0xF0 == 0
  | .setE _ => true
  | .setBL _ => true
  | .setOE _ => true
  | .allLow => true
  | .wait _ => true

/-- Every output latch is low (42_lifecycle.md R102, R105). -/
def Pads.Low (p : Pads) : Prop := p.rs = false ∧ p.e = false ∧ p.bl = false ∧ p.dl = 0

/-- The invariant of the block: what holds after reset and what every cycle keeps. -/
structure State.Inv (s : State) : Prop where
  /-- While UNCONFIGURED the masks are unseeded, ACFG is 0, no command runs and every latch is low (10_state.md R31, R32;
  42_lifecycle.md R102, R105). -/
  unconfigured : s.initState = .unconfigured → s.masks = .unseeded ∧ s.acfg = .zero ∧ s.busy = false ∧ s.pads.Low
  /-- While seeded, ACFG is a legal configuration and the fixed bits of every mask hold (10_state.md R26 to R32). -/
  seeded : s.initState ≠ .unconfigured →
    s.acfg.valid = true ∧ s.masks.em = 0x06 ∧ s.masks.dc &&& 0xF8 = 0x08 ∧ s.masks.ds = 0x10 ∧ s.masks.fs = fsSeed s.acfg
  /-- BUSY is 1 throughout INITIALIZING (10_state.md R24). -/
  initializing : s.initState = .initializing → s.busy = true
  /-- With no current action the sequencer is empty (10_state.md R36). -/
  idle : s.current = none → s.queue = [] ∧ s.repeatLeft = 0 ∧ s.waitCount = 0
  /-- The wait counter of a wait lies between 1 and W_T; otherwise it is 0 (10_state.md R38). -/
  waits : ∀ a, s.current = some a →
    (∀ t, a = .wait t → 1 ≤ s.waitCount ∧ s.waitCount ≤ t.cycles) ∧ ((∀ t, a ≠ .wait t) → s.waitCount = 0)
  /-- Only a READY block repeats moves (41_protocol_ops.md R93). -/
  repeats : s.repeatLeft ≠ 0 → s.initState = .ready
  /-- AllLow is CLOSE's only action (42_lifecycle.md R103). -/
  allLow : .allLow ∈ s.pending → s.initState = .ready ∧ s.pending = [.allLow]
  /-- OE is turned on by INIT's first action and by nothing else, while every latch is low (10_state.md R33, 42_lifecycle.md
  R101, R102). -/
  setOE : ∀ v, (.setOE v ∉ s.queue) ∧ (s.current = some (.setOE v) → v = true ∧ s.initState = .initializing ∧ s.pads.Low)
  /-- Once INIT's first action is done the pads are driven (10_state.md R33). -/
  driven : s.initState ≠ .unconfigured → s.pads.oe = true ∨ s.current = some (.setOE true)
  /-- E is 1 only within a pulse, and every pulse is carried out whole (40_bus_writer.md R81, R84). -/
  pulses : ∃ p : PulsePhase, p.runs s.pending = true ∧ s.pads.e = p.eHigh
  /-- In 4-bit width DL[7:4] are 0 (40_bus_writer.md R80). -/
  nibbles : s.initState ≠ .unconfigured → s.acfg.width = false →
    s.pads.dl &&& 0xF0 = 0 ∧ ∀ a ∈ s.pending, a.lowLines = true

end Sys2Proof.Machine
end

