-- ==== Sys2Proof/Certificates/Slice0/Obligations.lean ====
section
/-! DEFINITION. The statements about the block, for the provers. Each docstring names the rule of spec/ it formalises. No
statement rests on a value of Config or on the reset value of a field of the model's own. -/

open Sys2Proof Sys2Proof.Machine

/-! ### The command word (30_encoding.md) -/

/-- A few words of the table of 30_encoding.md R73, written out, decode to the commands they stand for; a few illegal words of
95_test_vectors.md V7 do not. -/
def Obligations.TableWordsDecode : Prop :=
  decode 0x01000000 = .ok .init ∧ decode 0x02000000 = .ok .clear ∧ decode 0x04000001 = .ok (.cursorBlink true) ∧
  decode 0x06000000 = .ok (.displayOn false) ∧ decode 0x07000003 = .ok (.moveLeft 3) ∧
  decode 0x08000103 = .ok (.setCursor 1 3) ∧ decode 0x09000048 = .ok (.printChar 0x48) ∧
  decode 0x0B000000 = .ok .close ∧
  Legal 0x00000000 = false ∧ Legal 0x0C000000 = false ∧ Legal 0x04000002 = false ∧ Legal 0x08010000 = false

/-- 30_encoding.md R73: each mnemonic with operands in range assembles to one write of its word to CMD, the words as the table
writes them; an operand out of its range is an assembly error. -/
def Obligations.MnemonicsAssembleToTableWords : Prop :=
  ∀ ok : Bool,
    asmCommand ok .init = some (.drive (.write .cmd 0x01000000 ok)) ∧
    asmCommand ok .clear = some (.drive (.write .cmd 0x02000000 ok)) ∧
    asmCommand ok .home = some (.drive (.write .cmd 0x03000000 ok)) ∧
    (∀ on : Bool, asmCommand ok (.cursorBlink on)
      = some (.drive (.write .cmd (if on then 0x04000001 else 0x04000000) ok))) ∧
    (∀ on : Bool, asmCommand ok (.cursorVisible on)
      = some (.drive (.write .cmd (if on then 0x05000001 else 0x05000000) ok))) ∧
    (∀ on : Bool, asmCommand ok (.displayOn on)
      = some (.drive (.write .cmd (if on then 0x06000001 else 0x06000000) ok))) ∧
    (∀ n : Nat, asmCommand ok (.moveLeft n)
      = if n ≤ 255 then some (.drive (.write .cmd (0x07000000#32 ||| BitVec.ofNat 32 n) ok)) else none) ∧
    (∀ row col : Nat, asmCommand ok (.setCursor row col)
      = if row ≤ 255 ∧ col ≤ 255 then
          some (.drive (.write .cmd (0x08000000#32 ||| (BitVec.ofNat 32 row <<< 8) ||| BitVec.ofNat 32 col) ok))
        else none) ∧
    (∀ g : Byte, asmCommand ok (.printChar g) = some (.drive (.write .cmd (0x09000000#32 ||| BitVec.ofNat 32 g.toNat) ok))) ∧
    (∀ on : Bool, asmCommand ok (.backlight on)
      = some (.drive (.write .cmd (if on then 0x0A000001 else 0x0A000000) ok))) ∧
    asmCommand ok .close = some (.drive (.write .cmd 0x0B000000 ok))

/-- Decoding the encoding of a well-formed command gives it back, every operand at every value (30_encoding.md R58, R61). -/
def Obligations.DecodeOfEncode : Prop :=
  ∀ i : Instr, i.WellFormed = true → decode (encode i) = .ok i

/-- A word that decodes is the encoding of the well-formed command it decodes to: each legal word has one meaning, and no bit is
dropped (30_encoding.md R59, R61). -/
def Obligations.EncodeOfDecode : Prop :=
  ∀ (w : Word) (i : Instr), decode w = .ok i → i.WellFormed = true ∧ encode i = w

/-- 30_encoding.md R61 and R62: a word is a command exactly when `(word & mask) == match` for the command's row, and its
operands are the unsigned fields of the bits outside the mask. -/
def Obligations.MaskAndMatchDecide : Prop :=
  ∀ w : Word,
    (decode w = .ok .init ↔ w &&& 0xFFFFFFFF = 0x01000000) ∧
    (decode w = .ok .clear ↔ w &&& 0xFFFFFFFF = 0x02000000) ∧
    (decode w = .ok .home ↔ w &&& 0xFFFFFFFF = 0x03000000) ∧
    (∀ on, decode w = .ok (.cursorBlink on) ↔ w &&& 0xFFFFFFFE = 0x04000000 ∧ on = w.getLsbD 0) ∧
    (∀ on, decode w = .ok (.cursorVisible on) ↔ w &&& 0xFFFFFFFE = 0x05000000 ∧ on = w.getLsbD 0) ∧
    (∀ on, decode w = .ok (.displayOn on) ↔ w &&& 0xFFFFFFFE = 0x06000000 ∧ on = w.getLsbD 0) ∧
    (∀ n, decode w = .ok (.moveLeft n) ↔ w &&& 0xFFFFFF00 = 0x07000000 ∧ n = w.toNat % 256) ∧
    (∀ row col, decode w = .ok (.setCursor row col)
      ↔ w &&& 0xFFFF0000 = 0x08000000 ∧ row = w.toNat / 256 % 256 ∧ col = w.toNat % 256) ∧
    (∀ g, decode w = .ok (.printChar g) ↔ w &&& 0xFFFFFF00 = 0x09000000 ∧ g.toNat = w.toNat % 256) ∧
    (∀ on, decode w = .ok (.backlight on) ↔ w &&& 0xFFFFFFFE = 0x0A000000 ∧ on = w.getLsbD 0) ∧
    (decode w = .ok .close ↔ w &&& 0xFFFFFFFF = 0x0B000000)

/-- 30_encoding.md R63 (with 60_exceptions.md R110): a word is illegal exactly if one of the five bullets holds, and written with
BUSY = 0 it sets CMDERR and nothing else. -/
def Obligations.IllegalWordsRaiseCmdErr : Prop :=
  ∀ w : Word,
    (Legal w = false ↔
      ((w.extractLsb' 24 8).toNat = 0 ∨ 0x0C ≤ (w.extractLsb' 24 8).toNat) ∨
      w.extractLsb' 16 8 ≠ 0#8 ∨
      (w.extractLsb' 8 8 ≠ 0#8 ∧ w.extractLsb' 24 8 ≠ 0x08#8) ∨
      (w.extractLsb' 1 7 ≠ 0#7 ∧ (w.extractLsb' 24 8 = 0x04#8 ∨ w.extractLsb' 24 8 = 0x05#8
        ∨ w.extractLsb' 24 8 = 0x06#8 ∨ w.extractLsb' 24 8 = 0x0A#8)) ∨
      (w.extractLsb' 0 8 ≠ 0#8 ∧ (w.extractLsb' 24 8 = 0x01#8 ∨ w.extractLsb' 24 8 = 0x02#8
        ∨ w.extractLsb' 24 8 = 0x03#8 ∨ w.extractLsb' 24 8 = 0x0B#8))) ∧
    (∀ s : State, s.busy = false → Legal w = false →
      s.handleCmd w = .next { s with errors := { s.errors with cmdErr := true } })

/-! ### The host bus (10_state.md, 20_memory.md) -/

/-- The layouts of the registers as the host reads them, bit by bit: CMD reads 0 (10_state.md R17), STATUS (R18), CONFIG (R22),
the masks (R25), PINS (R34). -/
def Obligations.RegisterLayouts : Prop :=
  ∀ s : State,
    s.hostRead .cmd = 0 ∧
    (s.hostRead .status).toNat
      = (match s.initState with | .unconfigured => 0 | .initializing => 1 | .ready => 2)
        + 2 ^ 2 * s.busy.toNat + 2 ^ 8 * s.errors.cfgErr.toNat + 2 ^ 9 * s.errors.resErr.toNat
        + 2 ^ 10 * s.errors.cmdErr.toNat + 2 ^ 11 * s.errors.stErr.toNat + 2 ^ 12 * s.errors.ovr.toNat ∧
    (s.hostRead .config).toNat
      = s.config.rows.toNat + 2 ^ 3 * s.config.font.toNat + 2 ^ 4 * s.config.width.toNat + 2 ^ 8 * s.config.cols.toNat
        + 2 ^ 16 * s.config.dlcnt.toNat ∧
    (s.hostRead .maskEm).toNat = s.masks.em.toNat ∧ (s.hostRead .maskDc).toNat = s.masks.dc.toNat ∧
    (s.hostRead .maskDs).toNat = s.masks.ds.toNat ∧ (s.hostRead .maskFs).toNat = s.masks.fs.toNat ∧
    (s.hostRead .pins).toNat
      = s.pads.rs.toNat + 2 * s.pads.e.toNat + 2 ^ 2 * s.pads.bl.toNat + 2 ^ 3 * s.pads.oe.toNat
        + 2 ^ 8 * s.pads.dl.toNat

/-- 20_memory.md R43: a read returns the value the register holds in its cycle (0 for CMD), and has no side effect: the cycle
leaves what an idle cycle leaves, but for HRDATA. Where no action runs and nothing is written, every register reads the same in
the next cycle. -/
def Obligations.ReadsHaveNoSideEffect : Prop :=
  (∀ (s t : State) (p : HostPins) (later : List HostAction), s.host = .drive p :: later → p.rstN = true → p.hre = true →
    p.hwe = false → step s = .next t →
      t.hrdata = some (s.hostRead (.ofIndex p.haddr)) ∧
      ∃ u, step { s with host := .drive (.idle p.pinctlOk) :: later } = .next u ∧ t = { u with hrdata := t.hrdata }) ∧
  (∀ s : State, s.hostRead .cmd = 0) ∧
  (∀ (s t : State) (r : HostReg), s.pins.rstN = true → s.pins.hwe = false → s.busy = false → step s = .next t →
    t.hostRead r = s.hostRead r)

/-- A host write of v to STATUS clears the error bits whose bits of v are 1, and changes nothing else (10_state.md R18, 20_memory.md
R44). -/
def Obligations.StatusWriteClearsOnes : Prop :=
  ∀ (s : State) (v : Word), ∃ t, s.hostWrite .status v = .next t ∧
    t.hostRead .status = s.hostRead .status &&& ~~~(v &&& 0x00001F00) ∧ t = { s with errors := t.errors }

/-- A host write of v to CONFIG keeps exactly the bits of its fields, whatever they are, and changes nothing else, in every state. In
every cycle, BUSY or not, CONFIG changes by reset, which clears it, and by a host write to index 2, and by nothing else (10_state.md
R22, R23; 20_memory.md R44). -/
def Obligations.ConfigWriteKeepsFieldBits : Prop :=
  (∀ (s : State) (v : Word), ∃ t, s.hostWrite .config v = .next t ∧
    t.hostRead .config = v &&& 0x000FFF1B ∧ t = { s with config := t.config }) ∧
  (∀ s t : State, step s = .next t →
    (s.pins.rstN = false → t.hostRead .config = 0) ∧
    (s.pins.rstN = true → s.pins.hwe = true → s.pins.haddr = 2 → t.hostRead .config = s.pins.hwdata &&& 0x000FFF1B) ∧
    (s.pins.rstN = true → (s.pins.hwe = false ∨ s.pins.haddr ≠ 2) → t.config = s.config))

/-- A host write to index 3 to 7 has no effect (20_memory.md R44; 10_state.md R25, R34): the cycle leaves what an idle cycle
leaves. -/
def Obligations.ReadOnlyWritesHaveNoEffect : Prop :=
  ∀ (s t : State) (p : HostPins) (later : List HostAction), s.host = .drive p :: later → p.rstN = true → p.hwe = true →
    p.hre = false → 3 ≤ p.haddr.toNat → step s = .next t →
      step { s with host := .drive (.idle p.pinctlOk) :: later } = .next t

/-- With HWE = HRE = 1 the write is performed as without HRE; HRDATA is any value (20_memory.md R41; that the model then gives some
word, a free one, is log entry 3). -/
def Obligations.BothStrobesPerformTheWrite : Prop :=
  ∀ (s : State) (p : HostPins) (later : List HostAction), p.rstN = true → p.hwe = true → p.hre = true →
    ∃ t u, step { s with host := .drive p :: later } = .next t ∧
      step { s with host := .drive { p with hre := false } :: later } = .next u ∧
      (∃ x, t.hrdata = some x) ∧ t = { u with hrdata := t.hrdata }

/-! ### Errors (60_exceptions.md) -/

/-- 60_exceptions.md R112: a CMD write in a cycle with BUSY = 1, whatever its word, sets OVR; the word is discarded, and the cycle is
otherwise that of an idle bus: the running command goes on. -/
def Obligations.BusyWriteSetsOvrOnly : Prop :=
  ∀ (s t : State) (p : HostPins) (later : List HostAction), s.host = .drive p :: later → p.rstN = true → p.hwe = true →
    p.haddr = 0 → s.busy = true → step s = .next t →
      ∃ u, step { s with host := .drive (.idle p.pinctlOk) :: later } = .next u ∧
        t = { u with errors := { u.errors with ovr := true }, hrdata := t.hrdata }

/-- 60_exceptions.md R111: a command written with BUSY = 0 in a STATE that does not allow its opcode sets STERR and nothing else:
every command but INIT while UNCONFIGURED, and INIT while READY. In the STATE that allows it, it sets no STERR. While INITIALIZING
every command raises OVR. -/
def Obligations.WrongStateSetsStErrOnly : Prop :=
  ∀ (s : State) (i : Instr),
    (s.busy = false → ((s.initState = .unconfigured ∧ i ≠ .init) ∨ (s.initState = .ready ∧ i = .init)) →
      exec i s = .next { s with errors := { s.errors with stErr := true } }) ∧
    (s.busy = false → ((s.initState = .unconfigured ∧ i = .init) ∨ (s.initState = .ready ∧ i ≠ .init)) →
      ∃ t, exec i s = .next t ∧ t.errors.stErr = s.errors.stErr) ∧
    (s.Inv → s.initState = .initializing → s.busy = true ∧
      exec i s = .next { s with errors := { s.errors with ovr := true } })

/-- 60_exceptions.md R108: INIT sets CFGERR, and nothing else, when CONFIG is not a valid configuration, whatever PINCTL_OK is. -/
def Obligations.InvalidConfigSetsCfgErrOnly : Prop :=
  ∀ s : State, s.busy = false → s.initState = .unconfigured →
    ((s.config.rows.toNat ≠ 1 ∧ s.config.rows.toNat ≠ 2) ∨ (s.config.cols.toNat < 1 ∨ 40 < s.config.cols.toNat) ∨
      (s.config.font = true ∧ s.config.rows.toNat = 2) ∨
      (s.config.width = true ∧ s.config.dlcnt.toNat ≠ 8) ∨ (s.config.width = false ∧ s.config.dlcnt.toNat ≠ 4)) →
    exec .init s = .next { s with errors := { s.errors with cfgErr := true } }

/-- 60_exceptions.md R109: INIT with a valid CONFIG and PINCTL_OK = 0 in its cycle sets RESERR and nothing else, so OE stays as it
was. -/
def Obligations.NoPinControllerSetsResErrOnly : Prop :=
  ∀ s : State, s.busy = false → s.initState = .unconfigured → s.config.valid = true → s.pinctlOk = false →
    exec .init s = .next { s with errors := { s.errors with resErr := true } }

/-- 60_exceptions.md R114: the checks run in the order OVR, CMDERR, STERR, CFGERR, RESERR, and the first that fails is the only error
raised; a word that passes them all raises none, and is handled by the rule of its opcode. -/
def Obligations.ErrorPriority : Prop :=
  ∀ (s : State) (v : Word),
    (s.busy = true → s.handleCmd v = .next { s with errors := { s.errors with ovr := true } }) ∧
    (s.busy = false → Legal v = false → s.handleCmd v = .next { s with errors := { s.errors with cmdErr := true } }) ∧
    (∀ i, s.busy = false → decode v = .ok i → s.initState ≠ (if i = .init then .unconfigured else .ready) →
      s.handleCmd v = .next { s with errors := { s.errors with stErr := true } }) ∧
    (s.busy = false → decode v = .ok .init → s.initState = .unconfigured → s.config.valid = false →
      s.handleCmd v = .next { s with errors := { s.errors with cfgErr := true } }) ∧
    (s.busy = false → decode v = .ok .init → s.initState = .unconfigured → s.config.valid = true → s.pinctlOk = false →
      s.handleCmd v = .next { s with errors := { s.errors with resErr := true } }) ∧
    (∀ i, s.busy = false → decode v = .ok i → s.initState = (if i = .init then .unconfigured else .ready) →
      (i = .init → s.config.valid = true ∧ s.pinctlOk = true) →
      ∃ t, s.handleCmd v = .next t ∧ exec i s = .next t ∧ t.errors = s.errors)

/-- An error is precise: a CMD write either leaves every error bit as it was, or sets exactly one error's bit and changes nothing
else (60_exceptions.md R107, R114). -/
def Obligations.ErrorsArePrecise : Prop :=
  ∀ (s t : State) (v : Word), s.handleCmd v = .next t →
    t.errors = s.errors ∨
    ∃ e : ErrorCode, t = { s with errors := t.errors } ∧ t.errors.get e = true ∧
      ∀ f : ErrorCode, f ≠ e → t.errors.get f = s.errors.get f

/-- An error bit is cleared only by reset or by a host write of 1 to it in STATUS (10_state.md R21, 60_exceptions.md R116). -/
def Obligations.ErrorBitsAreSticky : Prop :=
  ∀ (s t : State) (e : ErrorCode), step s = .next t → s.errors.get e = true → t.errors.get e = false →
    s.pins.rstN = false ∨
    (s.pins.hwe = true ∧ s.pins.haddr = 1 ∧
      s.pins.hwdata.getLsbD (match e with | .cfgErr => 8 | .resErr => 9 | .cmdErr => 10 | .stErr => 11 | .ovr => 12) = true)

/-- An error bit is set only by a CMD write, in every state and whatever the running command does (60_exceptions.md R107, R113;
20_memory.md R44). -/
def Obligations.OnlyCmdWritesSetErrors : Prop :=
  ∀ (s t : State) (e : ErrorCode), step s = .next t → s.errors.get e = false → t.errors.get e = true →
    s.pins.rstN = true ∧ s.pins.hwe = true ∧ s.pins.haddr = 0

/-! ### The runtime commands (41_protocol_ops.md) -/

/-- 41_protocol_ops.md R88. -/
def Obligations.ClearCommand : Prop :=
  ∀ s : State,
    (∀ v : Word, v.extractLsb' 24 8 = 0x02#8 → s.RejectsCommand v (v = 0x02000000) .ready) ∧
    (s.busy = false → s.initState = .ready → ∃ t, exec .clear s = .next t ∧ s.handleCmd 0x02000000 = .next t ∧
      t.pending = busWrite s.acfg.width 0x01 false ++ [.wait .clear] ∧ s.SameButSequencer t)

/-- 41_protocol_ops.md R89. -/
def Obligations.HomeCommand : Prop :=
  ∀ s : State,
    (∀ v : Word, v.extractLsb' 24 8 = 0x03#8 → s.RejectsCommand v (v = 0x03000000) .ready) ∧
    (s.busy = false → s.initState = .ready → ∃ t, exec .home s = .next t ∧ s.handleCmd 0x03000000 = .next t ∧
      t.pending = busWrite s.acfg.width 0x02 false ∧ s.SameButSequencer t)

/-- 41_protocol_ops.md R90: bit 0 of MASK.DC becomes `on`, no other bit of any mask changes, and the updated byte is sent even when
the bit already had that value. -/
def Obligations.CursorBlinkCommand : Prop :=
  ∀ s : State,
    (∀ v : Word, v.extractLsb' 24 8 = 0x04#8 → s.RejectsCommand v (v.extractLsb' 1 23 = 0#23) .ready) ∧
    (∀ on : Bool, s.busy = false → s.initState = .ready → ∃ t dc, exec (.cursorBlink on) s = .next t ∧
      s.handleCmd (if on then 0x04000001 else 0x04000000) = .next t ∧
      dc.getLsbD 0 = on ∧ (∀ j, j ≠ 0 → dc.getLsbD j = s.masks.dc.getLsbD j) ∧
      t.pending = busWrite s.acfg.width dc false ∧
      ({ s with masks := { s.masks with dc := dc } } : State).SameButSequencer t)

/-- 41_protocol_ops.md R91: bit 1 of MASK.DC, as R90. -/
def Obligations.CursorVisibleCommand : Prop :=
  ∀ s : State,
    (∀ v : Word, v.extractLsb' 24 8 = 0x05#8 → s.RejectsCommand v (v.extractLsb' 1 23 = 0#23) .ready) ∧
    (∀ on : Bool, s.busy = false → s.initState = .ready → ∃ t dc, exec (.cursorVisible on) s = .next t ∧
      s.handleCmd (if on then 0x05000001 else 0x05000000) = .next t ∧
      dc.getLsbD 1 = on ∧ (∀ j, j ≠ 1 → dc.getLsbD j = s.masks.dc.getLsbD j) ∧
      t.pending = busWrite s.acfg.width dc false ∧
      ({ s with masks := { s.masks with dc := dc } } : State).SameButSequencer t)

/-- 41_protocol_ops.md R92: bit 2 of MASK.DC, as R90. -/
def Obligations.DisplayOnCommand : Prop :=
  ∀ s : State,
    (∀ v : Word, v.extractLsb' 24 8 = 0x06#8 → s.RejectsCommand v (v.extractLsb' 1 23 = 0#23) .ready) ∧
    (∀ on : Bool, s.busy = false → s.initState = .ready → ∃ t dc, exec (.displayOn on) s = .next t ∧
      s.handleCmd (if on then 0x06000001 else 0x06000000) = .next t ∧
      dc.getLsbD 2 = on ∧ (∀ j, j ≠ 2 → dc.getLsbD j = s.masks.dc.getLsbD j) ∧
      t.pending = busWrite s.acfg.width dc false ∧
      ({ s with masks := { s.masks with dc := dc } } : State).SameButSequencer t)

/-- 41_protocol_ops.md R93: exactly n writes of 0x10; with n = 0 no action, and BUSY stays 0. -/
def Obligations.MoveLeftCommand : Prop :=
  ∀ s : State,
    (∀ v : Word, v.extractLsb' 24 8 = 0x07#8 → s.RejectsCommand v (v.extractLsb' 8 16 = 0#16) .ready) ∧
    (∀ n : Nat, n ≤ 255 → s.busy = false → s.initState = .ready → ∃ t, exec (.moveLeft n) s = .next t ∧
      s.handleCmd (0x07000000#32 ||| BitVec.ofNat 32 n) = .next t ∧
      t.pending = (List.replicate n (busWrite s.acfg.width 0x10 false)).flatten ∧ t.busy = decide (n ≠ 0) ∧
      s.SameButSequencer t)

/-- 41_protocol_ops.md R94: in range the set-address byte is sent; with row >= ACFG.ROWS or col >= ACFG.COLS nothing happens at
all. -/
def Obligations.SetCursorCommand : Prop :=
  ∀ s : State,
    (∀ v : Word, v.extractLsb' 24 8 = 0x08#8 → s.RejectsCommand v (v.extractLsb' 16 8 = 0#8) .ready) ∧
    (∀ row col : Nat, row ≤ 255 → col ≤ 255 → s.busy = false → s.initState = .ready →
      ∃ t, exec (.setCursor row col) s = .next t ∧
      s.handleCmd (0x08000000#32 ||| (BitVec.ofNat 32 row <<< 8) ||| BitVec.ofNat 32 col) = .next t ∧
      (row < s.acfg.rows.toNat → col < s.acfg.cols.toNat →
        t.pending = busWrite s.acfg.width (0x80#8 ||| BitVec.ofNat 8 (0x40 * row + col)) false ∧ s.SameButSequencer t) ∧
      (s.acfg.rows.toNat ≤ row ∨ s.acfg.cols.toNat ≤ col → t = s))

/-- 41_protocol_ops.md R95: the glyph code, every value of it, is sent unchanged as a data write. -/
def Obligations.PrintCharCommand : Prop :=
  ∀ s : State,
    (∀ v : Word, v.extractLsb' 24 8 = 0x09#8 → s.RejectsCommand v (v.extractLsb' 8 16 = 0#16) .ready) ∧
    (∀ g : Byte, s.busy = false → s.initState = .ready → ∃ t, exec (.printChar g) s = .next t ∧
      s.handleCmd (0x09000000#32 ||| BitVec.ofNat 32 g.toNat) = .next t ∧
      t.pending = busWrite s.acfg.width g true ∧ s.SameButSequencer t)

/-- 41_protocol_ops.md R96: one SetBL, even when BL already has the level; BL has it after the next cycle, RS, E and DL do not
change, and BUSY is 1 for exactly that one cycle. -/
def Obligations.BacklightCommand : Prop :=
  ∀ s : State,
    (∀ v : Word, v.extractLsb' 24 8 = 0x0A#8 → s.RejectsCommand v (v.extractLsb' 1 23 = 0#23) .ready) ∧
    (∀ on : Bool, s.busy = false → s.initState = .ready → ∃ t, exec (.backlight on) s = .next t ∧
      s.handleCmd (if on then 0x0A000001 else 0x0A000000) = .next t ∧
      t.pending = [.setBL on] ∧ t.busy = true ∧ s.SameButSequencer t ∧
      (t.pins.rstN = true → ∃ u, step t = .next u ∧ u.pads = { s.pads with bl := on } ∧ u.busy = false))

/-- 42_lifecycle.md R103: CLOSE emits AllLow; when it completes every latch is 0 and OE as it was (in a state of the invariant 1, so that
every pad drives 0),
STATE is UNCONFIGURED, the masks are unseeded and ACFG is 0. -/
def Obligations.CloseCommand : Prop :=
  ∀ s : State,
    (∀ v : Word, v.extractLsb' 24 8 = 0x0B#8 → s.RejectsCommand v (v = 0x0B000000) .ready) ∧
    (s.busy = false → s.initState = .ready → ∃ t, exec .close s = .next t ∧ s.handleCmd 0x0B000000 = .next t ∧
      t.pending = [.allLow] ∧ t.busy = true ∧ s.SameButSequencer t ∧
      (t.pins.rstN = true → ∃ u, step t = .next u ∧ u.busy = false ∧ u.initState = .unconfigured ∧
        u.pads = { rs := false, e := false, bl := false, dl := 0, oe := s.pads.oe } ∧
        (s.Inv → s.pads.oe = true ∧ ∀ q : Pad, u.pads.level q = .driven false) ∧
        u.masks = { em := 0, dc := 0, ds := 0, fs := 0 } ∧
        u.acfg = { rows := 0, font := false, width := false, cols := 0, dlcnt := 0 }))

/-- INIT where its checks pass: ACFG is CONFIG, the masks are seeded from it, STATE is INITIALIZING, and the init sequence is
emitted, all else as it was (42_lifecycle.md R99, R100, R101). The rejected forms are as R99 gives them. -/
def Obligations.InitCommandBegins : Prop :=
  ∀ s : State,
    (∀ v : Word, v.extractLsb' 24 8 = 0x01#8 → s.RejectsCommand v (v = 0x01000000) .unconfigured) ∧
    (s.busy = false → s.initState = .unconfigured → s.config.valid = true → s.pinctlOk = true →
      ∃ t fs, exec .init s = .next t ∧ s.handleCmd 0x01000000 = .next t ∧
      fs = 0x20#8 + (if s.config.width then 0x10#8 else 0#8) + (if s.config.rows = 2 then 0x08#8 else 0#8)
        + (if s.config.font then 0x04#8 else 0#8) ∧
      t.pending = [.setOE true] ++ busWrite s.config.width fs false ++ [.wait .settle]
        ++ busWrite s.config.width 0x0C false ++ [.wait .settle]
        ++ busWrite s.config.width 0x01 false ++ [.wait .clear] ∧
      ({ s with acfg := s.config, masks := { em := 0x06, dc := 0x0C, ds := 0x10, fs := fs }, initState := .initializing }
        : State).SameButSequencer t)

/-- 42_lifecycle.md R98: what a valid configuration is. -/
def Obligations.ConfigValidity : Prop :=
  ∀ c : CfgFields, c.valid = true ↔
    (c.rows.toNat = 1 ∨ c.rows.toNat = 2) ∧ (1 ≤ c.cols.toNat ∧ c.cols.toNat ≤ 40) ∧
    (c.font = false ∨ c.rows.toNat = 1) ∧ c.dlcnt.toNat = (if c.width then 8 else 4)

/-- 41_protocol_ops.md R97: whatever the outcome of a runtime command, MASK.EM, MASK.DS, MASK.FS and ACFG do not change, and
MASK.DC changes at most in the one bit of a toggle. And in every cycle, those in which a command's actions run among them, the mask
table changes only by reset, by an INIT that passes its checks, by CLOSE's AllLow, and in its one bit by an accepted toggle
(10_state.md R27 to R31). -/
def Obligations.RuntimeCommandsKeepMasks : Prop :=
  (∀ (i : Instr) (s t : State), i ≠ .init → i ≠ .close → exec i s = .next t →
    t.masks.em = s.masks.em ∧ t.masks.ds = s.masks.ds ∧ t.masks.fs = s.masks.fs ∧ t.acfg = s.acfg ∧
    (∀ j, (∀ on, i = .cursorBlink on → j ≠ 0) → (∀ on, i = .cursorVisible on → j ≠ 1) → (∀ on, i = .displayOn on → j ≠ 2) →
      t.masks.dc.getLsbD j = s.masks.dc.getLsbD j)) ∧
  (∀ s t : State, step s = .next t → t.masks ≠ s.masks →
    (s.pins.rstN = false ∧ t.masks = { em := 0, dc := 0, ds := 0, fs := 0 }) ∨
    (s.pins.rstN = true ∧ s.current = some .allLow ∧ t.masks = { em := 0, dc := 0, ds := 0, fs := 0 }) ∨
    (s.pins.rstN = true ∧ s.pins.hwe = true ∧ s.pins.haddr = 0 ∧ s.pins.hwdata = 0x01000000 ∧ s.busy = false ∧
      s.initState = .unconfigured ∧ s.config.valid = true ∧ s.pinctlOk = true ∧
      t.masks = { em := 0x06, dc := 0x0C, ds := 0x10, fs := fsSeed s.config }) ∨
    (s.pins.rstN = true ∧ s.pins.hwe = true ∧ s.pins.haddr = 0 ∧ s.busy = false ∧ s.initState = .ready ∧
      ∃ k, ((s.pins.hwdata &&& 0xFFFFFFFE = 0x04000000 ∧ k = 0) ∨ (s.pins.hwdata &&& 0xFFFFFFFE = 0x05000000 ∧ k = 1) ∨
          (s.pins.hwdata &&& 0xFFFFFFFE = 0x06000000 ∧ k = 2)) ∧
        t.masks = { s.masks with dc := t.masks.dc } ∧ t.masks.dc.getLsbD k = s.pins.hwdata.getLsbD 0 ∧
        ∀ j, j ≠ k → t.masks.dc.getLsbD j = s.masks.dc.getLsbD j))

/-- Toggling a bit of MASK.DC away and back, in two accepted commands with any cycles between them that leave the masks, restores the
mask table where the bit did not have the first command's value before (41_protocol_ops.md R90 to R92, corner cases; 90_conflicts.md
C6). -/
def Obligations.TogglesRoundTrip : Prop :=
  ∀ (s t u v : State) (on : Bool), s.busy = false → s.initState = .ready → u.busy = false → u.initState = .ready →
    u.masks = t.masks →
    (exec (.cursorBlink on) s = .next t → exec (.cursorBlink !on) u = .next v →
      s.masks.dc.getLsbD 0 = (!on) → v.masks = s.masks) ∧
    (exec (.cursorVisible on) s = .next t → exec (.cursorVisible !on) u = .next v →
      s.masks.dc.getLsbD 1 = (!on) → v.masks = s.masks) ∧
    (exec (.displayOn on) s = .next t → exec (.displayOn !on) u = .next v →
      s.masks.dc.getLsbD 2 = (!on) → v.masks = s.masks)

/-! ### The bytes on the pins (30_encoding.md, 40_bus_writer.md) -/

/-- `W(p, sel)` and `PULSE`, action by action (40_bus_writer.md R77 to R81): in 8-bit width one transfer of p, in 4-bit width the
high nibble and then the low nibble on DL[3:0], RS at sel in each, a whole pulse after each. -/
def Obligations.BusWriteSerializes : Prop :=
  ∀ (p : Byte) (sel : Bool),
    busWrite true p sel = [.setBus sel p, .wait .short, .setE true, .wait .short, .setE false, .wait .settle] ∧
    ∃ hi lo : Byte, hi.toNat = p.toNat / 16 ∧ lo.toNat = p.toNat % 16 ∧
      busWrite false p sel
        = [.setBus sel hi, .wait .short, .setE true, .wait .short, .setE false, .wait .settle,
           .setBus sel lo, .wait .short, .setE true, .wait .short, .setE false, .wait .settle]

/-- 30_encoding.md R70: in a legal configuration, for every row and column in range, the set-address byte is 0x80 + 0x40*row + col
without wrapping, 0x80 to 0xA7 for row 0 and 0xC0 to 0xE7 for row 1. -/
def Obligations.SetAddressByteRange : Prop :=
  ∀ (c : CfgFields) (row col : Nat), c.valid = true → row < c.rows.toNat → col < c.cols.toNat →
    (setAddressByte row col).toNat = 0x80 + 0x40 * row + col ∧
    ((row = 0 ∧ 0x80 ≤ (setAddressByte row col).toNat ∧ (setAddressByte row col).toNat ≤ 0xA7) ∨
      (row = 1 ∧ 0xC0 ≤ (setAddressByte row col).toNat ∧ (setAddressByte row col).toNat ≤ 0xE7))

/-- 30_encoding.md R72: the SetBus actions of any command accepted in a state of the invariant are those of bus writes whose
instruction bytes are among the bytes listed there, and which are data writes only for PRINT_CHAR. -/
def Obligations.OnlyListedBytesAreSent : Prop :=
  ∀ (i : Instr) (s t : State), s.Inv → s.busy = false → exec i s = .next t →
    ∃ bytes : List (Byte × Bool),
      t.pending.filter (fun a => match a with | .setBus _ _ => true | _ => false)
        = bytes.flatMap (fun b => (busWrite t.acfg.width b.1 b.2).filter
            (fun a => match a with | .setBus _ _ => true | _ => false)) ∧
      (∀ b ∈ bytes, b.2 = true → i = .printChar b.1) ∧
      (∀ b ∈ bytes, b.2 = false →
        b.1 ∈ [0x01#8, 0x02#8, 0x10#8, 0x20#8, 0x24#8, 0x28#8, 0x30#8, 0x34#8, 0x38#8] ∨
        (0x08 ≤ b.1.toNat ∧ b.1.toNat ≤ 0x0F) ∨ (0x80 ≤ b.1.toNat ∧ b.1.toNat ≤ 0xA7) ∨
        (0xC0 ≤ b.1.toNat ∧ b.1.toNat ≤ 0xE7))

/-! ### The sequencer and its timing (10_state.md, 70_reset_and_hazards.md)

The cycle in which an action's effect shows is log entry 6. A run with `NoReset` goes on out of reset past the end of the host's list,
which is the model's choice (log entry 5). -/

/-- 00_scope.md R12: what one cycle does to the outputs, by the action being carried out; with no action, or in a wait, nothing. -/
def Obligations.ActionsDriveThePads : Prop :=
  ∀ s t : State, s.Inv → s.pins.rstN = true → step s = .next t →
    match s.current with
    | none => t.pads = s.pads
    | some (.setBus rs d) => t.pads = { s.pads with rs := rs, dl := d }
    | some (.setE v) => t.pads = { s.pads with e := v }
    | some (.setBL v) => t.pads = { s.pads with bl := v }
    | some (.setOE v) => t.pads = { s.pads with oe := v }
    | some .allLow => t.pads = { s.pads with rs := false, e := false, bl := false, dl := 0 }
    | some (.wait _) => t.pads = s.pads

/-- 10_state.md R38: a wait that starts with its counter loaded lasts exactly W_T cycles: the outputs do not change during it, and
the next action starts when it ends. Only reset could end it early. (Log entries 5 and 6.) -/
def Obligations.WaitLastsExactly : Prop :=
  ∀ (s : State) (d : Delay), s.NoReset → s.current = some (.wait d) → s.waitCount = d.cycles →
    (∀ k, k < d.cycles → ∃ u, s.after k = some u ∧ u.current = some (.wait d) ∧ u.waitCount = d.cycles - k ∧
      u.pads = s.pads) ∧
    (∃ u, s.after d.cycles = some u ∧ u.pads = s.pads ∧ u.pending = s.pending.tail)

/-- Within one pulse E is 1 for exactly W_SHORT + 1 cycles, from the cycle after the setup wait and its SetE(1), and no other pad
changes until the settle wait has ended (40_bus_writer.md R81, R84, R85; 70_reset_and_hazards.md R136; log entries 5 and 6). -/
def Obligations.EnablePulseWidth : Prop :=
  ∀ (s : State) (later : List Action), s.Inv → s.NoReset → s.pads.e = false → s.waitCount = Config.wShort →
    s.pending = [.wait .short, .setE true, .wait .short, .setE false, .wait .settle] ++ later →
    ∀ k, k ≤ 2 + 2 * Config.wShort + Config.wSettle →
      ∃ u, s.after k = some u ∧
        u.pads = { s.pads with e := decide (Config.wShort + 1 ≤ k ∧ k ≤ 2 * Config.wShort + 1) }

/-- The busy time of every accepted command, spelled out by the formulas of 70_reset_and_hazards.md R136 and R137; an ignored
SET_CURSOR and every rejected word, its error bit having been set before or not, leave BUSY = 0. -/
def Obligations.BusyTimes : Prop :=
  ∀ s t : State, s.busy = false →
    let dw := fun width : Bool =>
      if width then 3 + 2 * Config.wShort + Config.wSettle else 6 + 4 * Config.wShort + 2 * Config.wSettle
    (exec .init s = .next t → s.initState = .unconfigured → s.config.valid = true → s.pinctlOk = true →
      t.remaining = 1 + 3 * dw s.config.width + 2 * Config.wSettle + Config.wClear) ∧
    (exec .init s = .next t → (s.config.valid = false ∨ s.pinctlOk = false) → t.busy = false) ∧
    (s.initState = .ready →
      (exec .clear s = .next t → t.remaining = dw s.acfg.width + Config.wClear) ∧
      (exec .home s = .next t → t.remaining = dw s.acfg.width) ∧
      (∀ on, exec (.cursorBlink on) s = .next t → t.remaining = dw s.acfg.width) ∧
      (∀ on, exec (.cursorVisible on) s = .next t → t.remaining = dw s.acfg.width) ∧
      (∀ on, exec (.displayOn on) s = .next t → t.remaining = dw s.acfg.width) ∧
      (∀ n, exec (.moveLeft n) s = .next t → t.remaining = n * dw s.acfg.width) ∧
      (∀ row col, exec (.setCursor row col) s = .next t →
        if row < s.acfg.rows.toNat ∧ col < s.acfg.cols.toNat then t.remaining = dw s.acfg.width else t.busy = false) ∧
      (∀ g, exec (.printChar g) s = .next t → t.remaining = dw s.acfg.width) ∧
      (∀ on, exec (.backlight on) s = .next t → t.remaining = 1) ∧
      (exec .close s = .next t → t.remaining = 1)) ∧
    (∀ v, s.handleCmd v = .next t →
      (t.errors ≠ s.errors ∨ Legal v = false ∨
        (∃ i, decode v = .ok i ∧ s.initState ≠ (if i = .init then .unconfigured else .ready)) ∨
        (v = 0x01000000 ∧ (s.config.valid = false ∨ s.pinctlOk = false))) → t.busy = false)

/-- 10_state.md R20: BUSY is 1 for exactly the cycles that the command in progress still takes, whatever the host does on the bus
but reset, and falls in the cycle after its last action (log entries 5 and 6). -/
def Obligations.BusyCoversTheQueueExactly : Prop :=
  ∀ s : State, s.Inv → s.NoReset →
    (∀ k, k < s.remaining → ∃ t, s.after k = some t ∧ t.busy = true ∧ t.remaining = s.remaining - k) ∧
    (∃ t, s.after s.remaining = some t ∧ t.busy = false)

/-- The refinement of the action sequence by the clocked block: from any state of the invariant, whatever the host does on the bus
but reset, the pads at the end of each coming cycle of the command are those of carrying out its pending actions one after the
other, each for its duration, with no gap (00_scope.md R12; 20_memory.md R51, R52; log entries 5 and 6). -/
def Obligations.CommandRunsItsActions : Prop :=
  ∀ s : State, s.Inv → s.NoReset →
    s.trace.length = s.remaining ∧
    ∀ k, k < s.remaining → ∃ t, s.after (k + 1) = some t ∧ s.trace[k]? = some t.pads

/-- From UNCONFIGURED with a valid CONFIG and PINCTL_OK = 1, the cycle of an INIT write and then the init sequence, whatever the host
does meanwhile but reset: INITIALIZING with BUSY = 1 for exactly 1 + 3*D_W + 2*W_SETTLE + W_CLEAR cycles, and then READY with the
masks seeded and the pads driven, the last byte being Clear (10_state.md R24; 42_lifecycle.md R99 to R102; 70_reset_and_hazards.md
R137; log entries 5 and 6). -/
def Obligations.InitRunsToReady : Prop :=
  ∀ (s : State) (later : List HostAction), s.Inv → s.NoReset → s.initState = .unconfigured → s.config.valid = true →
    s.host = .drive (.write .cmd 0x01000000 true) :: later →
    let n := 1 + 3 * writeCycles s.config.width + 2 * Config.wSettle + Config.wClear
    (∀ k, 1 ≤ k → k ≤ n → ∃ t, s.after k = some t ∧ t.initState = .initializing ∧ t.busy = true) ∧
    (∃ t, s.after (1 + n) = some t ∧ t.initState = .ready ∧ t.busy = false ∧ t.acfg = s.config ∧
      t.masks.em = 0x06 ∧ t.masks.dc = 0x0C ∧ t.masks.ds = 0x10 ∧ t.masks.fs = fsSeed s.config ∧
      t.pads = { rs := false, e := false, bl := false, dl := 0x01, oe := true })

/-- INIT's first enable pulse comes W_SHORT + 3 cycles after the CMD write: E is 0 until then, and 1 after that cycle
(70_reset_and_hazards.md R129; log entries 5 and 6). -/
def Obligations.InitFirstEnableRise : Prop :=
  ∀ (s : State) (later : List HostAction), s.Inv → s.NoReset → s.initState = .unconfigured → s.config.valid = true →
    s.host = .drive (.write .cmd 0x01000000 true) :: later →
    (∀ k, k ≤ Config.wShort + 3 → ∃ t, s.after k = some t ∧ t.pads.e = false) ∧
    (∃ t, s.after (Config.wShort + 4) = some t ∧ t.pads.e = true)

/-- WAIT_IDLE ends as soon as the command in progress has: it stays at the head of the host's script for the cycles the command still
takes, and its last read of STATUS has BUSY = 0 (30_encoding.md R75, 20_memory.md R53; that it polls every cycle is log entry 14). -/
def Obligations.WaitIdleEnds : Prop :=
  ∀ (s : State) (ok : Bool) (later : List HostAction), s.Inv → s.host = .waitIdle ok :: later →
    (∀ k, k ≤ s.remaining → ∃ t, s.after k = some t ∧ t.host = .waitIdle ok :: later) ∧
    (∃ t v, s.after (s.remaining + 1) = some t ∧ t.host = later ∧ t.busy = false ∧ t.hrdata = some v ∧
      v.getLsbD 2 = false)

/-! ### The whole machine -/

/-- Every step answers a next state: the block has no trap and no stop (60_exceptions.md R113, R118). -/
def Obligations.EveryStepAnswers : Prop := ∀ s : State, ∃ t, step s = .next t

/-- The invariant holds after reset. -/
def Obligations.InvariantAtReset : Prop := State.reset.Inv

/-- Every cycle keeps the invariant: the masks' fixed bits, ACFG's legality, the latches low while UNCONFIGURED, E high only within a
pulse, DL[7:4] low in 4-bit width, the counters in their bounds (10_state.md R24, R30 to R33, R36, R38; 40_bus_writer.md R80, R84;
42_lifecycle.md R102, R105). -/
def Obligations.EveryStepKeepsTheInvariant : Prop :=
  ∀ s t : State, s.Inv → step s = .next t → t.Inv

/-- 10_state.md R24: the transitions of the init state machine, and no other. From UNCONFIGURED it leaves by the write of an INIT
that passes its checks, from INITIALIZING in the cycle that the last action completes, from READY in that of CLOSE's action. -/
def Obligations.InitStateTransitions : Prop :=
  ∀ s t : State, s.Inv → step s = .next t →
    t.initState
      = (if s.pins.rstN = false then .unconfigured
        else match s.initState with
        | .unconfigured =>
          if s.pins.hwe = true ∧ s.pins.haddr = 0 ∧ s.pins.hwdata = 0x01000000 ∧ s.config.valid = true ∧ s.pinctlOk = true
          then .initializing else .unconfigured
        | .initializing => if s.remaining = 1 then .ready else .initializing
        | .ready => if s.current = some .allLow then .unconfigured else .ready) ∧
    (t.initState = .initializing → t.busy = true)

/-- 10_state.md R32: ACFG is written by an INIT that passes its checks (from CONFIG), by CLOSE and by reset (to 0), and by nothing
else. -/
def Obligations.AcfgWriters : Prop :=
  ∀ s t : State, step s = .next t → t.acfg ≠ s.acfg →
    (s.pins.rstN = false ∧ t.acfg = .zero) ∨
    (s.pins.hwe = true ∧ s.pins.haddr = 0 ∧ s.pins.hwdata = 0x01000000 ∧ s.config.valid = true ∧ s.pinctlOk = true ∧
      t.acfg = s.config) ∨
    (s.current = some .allLow ∧ t.acfg = .zero)

/-- OE changes only by INIT's SetOE(1), which turns it on, and by reset, which clears it; CLOSE leaves it (10_state.md R33,
42_lifecycle.md R103). -/
def Obligations.OutputEnableWriters : Prop :=
  ∀ s t : State, s.Inv → step s = .next t → t.pads.oe ≠ s.pads.oe →
    (s.pins.rstN = false ∧ t.pads.oe = false) ∨
    (s.current = some (.setOE true) ∧ s.initState = .initializing ∧ t.pads.oe = true)

/-- The latches are low from a CLOSE, or reset, until the first bus write of the next INIT: in a state of the invariant that is
UNCONFIGURED or about to carry out INIT's SetOE, they are low and a cycle leaves them low (42_lifecycle.md R102, R105). -/
def Obligations.LatchesLowUntilInitWrites : Prop :=
  ∀ s t : State, s.Inv → step s = .next t →
    (s.initState = .unconfigured ∨ ∃ v, s.current = some (.setOE v)) → s.pads.Low ∧ t.pads.Low

/-- 70_reset_and_hazards.md R126 and 10_state.md R40: a cycle with RST_N = 0 puts every piece of state at its reset value, a command in
progress and the host's access being dropped. -/
def Obligations.ResetTakesEveryState : Prop :=
  ∀ s : State, s.pins.rstN = false → ∃ t, step s = .next t ∧
    t.initState = .unconfigured ∧ t.busy = false ∧
    t.errors = { cfgErr := false, resErr := false, cmdErr := false, stErr := false, ovr := false } ∧
    t.config = { rows := 0, font := false, width := false, cols := 0, dlcnt := 0 } ∧
    t.acfg = { rows := 0, font := false, width := false, cols := 0, dlcnt := 0 } ∧
    (∀ r : HostReg, t.hostRead r = 0) ∧
    t.pads = { rs := false, e := false, bl := false, dl := 0, oe := false } ∧ (∀ q : Pad, t.pads.level q = .highZ) ∧
    t.current = none ∧ t.queue = [] ∧ t.repeatLeft = 0 ∧ t.waitCount = 0

/-- 10_state.md R40: the state after reset. -/
def Obligations.ResetValues : Prop :=
  (∀ r : HostReg, State.reset.hostRead r = 0) ∧ State.reset.initState = .unconfigured ∧ State.reset.busy = false ∧
    State.reset.acfg = { rows := 0, font := false, width := false, cols := 0, dlcnt := 0 } ∧
    State.reset.current = none ∧ State.reset.queue = [] ∧ State.reset.waitCount = 0 ∧ State.reset.repeatLeft = 0

/-- While a command runs, CONFIG does not matter to it: two states that differ in CONFIG only take a cycle to states that agree in
all but CONFIG and what the host read (10_state.md R23, 20_memory.md R55). -/
def Obligations.ConfigDoesNotReachARunningCommand : Prop :=
  ∀ (s t : State) (c : CfgFields), s.busy = true → step s = .next t →
    ∃ u, step { s with config := c } = .next u ∧ u = { t with config := u.config, hrdata := u.hrdata }

/-- A step runs the command it is given: where the host writes a word to CMD in this cycle, out of reset, and the word decodes to i,
the step is exec of i at this state and then the end of the cycle, a running command's sequencer going on; and a word placed by
withFetchWord is that write (60_exceptions.md R114, 20_memory.md R51). What it says of the model's own fields (hrdata, host, draws) is
the model's choice (log entries 3, 4, 5). -/
def Obligations.StepRunsTheDecodedCommand : Prop :=
  (∀ (s : State) (i : Instr), s.pins.rstN = true → s.pins.hwe = true → s.pins.haddr = 0 → decode s.pins.hwdata = .ok i →
    step s = onNext (exec i s) fun t => s.endCycle s.readData (if s.busy then t.seqCycle else t)) ∧
  (∀ (s : State) (nbits w : Nat) (i : Instr), decodeTableWord nbits w = some i →
    let p := s.withFetchWord nbits w
    step p = onNext (exec i p) fun t =>
      { (if p.busy then t.seqCycle else t) with hrdata := none, host := s.host, draws := s.draws + 1 })

/-! ### The host's pseudo-instructions (30_encoding.md R75) -/

/-- `SETCFG` with operands in their fields' ranges gives CONFIG exactly those fields. -/
def Obligations.SetCfgGivesTheFields : Prop :=
  ∀ (s : State) (rows cols dlcnt : Nat) (font width : Bool), rows < 4 → cols < 256 → dlcnt < 16 →
    s.hostWrite .config (setCfgWord rows cols font width dlcnt)
      = .next { s with config := { rows := BitVec.ofNat 2 rows, font := font, width := width, cols := BitVec.ofNat 8 cols,
                                   dlcnt := BitVec.ofNat 4 dlcnt } }

/-- `MOVE_LEFT n` becomes commands whose counts are legal operands and add up to n, all but the last being 255: for 1 <= n <= 255 the one
command, above 255 each with a WAIT_IDLE before it; for n <= 0 it becomes nothing (for 0, log entry 11). `PRINT` becomes one WAIT_IDLE and one PRINT_CHAR for each character, in order. -/
def Obligations.PseudoInstructionsExpand : Prop :=
  (∀ n : Int, n ≤ 0 → asmMoveLeft true n = [] ∧ asmMoveLeft false n = []) ∧
  (∀ n : Int, 0 ≤ n → ((moveLeftCounts n).sum : Int) = n ∧ (∀ k ∈ moveLeftCounts n, 1 ≤ k ∧ k ≤ 255) ∧
    ∀ k ∈ (moveLeftCounts n).dropLast, k = 255) ∧
  (∀ (ok : Bool) (n : Int), 255 < n → asmMoveLeft ok n = (moveLeftCounts n).flatMap fun k =>
    [.waitIdle ok, .drive (.write .cmd (0x07000000#32 ||| BitVec.ofNat 32 k) ok)]) ∧
  (∀ (ok : Bool) (n : Int), 1 ≤ n → n ≤ 255 →
    asmMoveLeft ok n = [.drive (.write .cmd (0x07000000#32 ||| BitVec.ofNat 32 n.toNat) ok)]) ∧
  (∀ ok, asmPrint ok [] = []) ∧
  (∀ (ok : Bool) (c : Char) (text : List Char),
    asmPrint ok (c :: text)
      = .waitIdle ok :: .drive (.write .cmd (0x09000000#32 ||| BitVec.ofNat 32 (Config.encode c).toNat) ok) :: asmPrint ok text)

/-! ### The pads' outputs (10_state.md R33) -/

/-- 10_state.md R33: with OE = 0 every pad is high-impedance, with OE = 1 every pad drives its latch. The latches and OE change only by the
action being carried out and by reset, OE by INIT's SetOE(1) and reset alone; when SetOE(1) turns the drivers on every pad starts at 0
(42_lifecycle.md R102), and after it, while INITIALIZING or READY, no pad is high-impedance. -/
def Obligations.PadLevels : Prop :=
  ∀ s : State,
    (s.pads.oe = false → ∀ q : Pad, s.pads.level q = .highZ) ∧
    (s.pads.oe = true → s.pads.level .rs = .driven s.pads.rs ∧ s.pads.level .e = .driven s.pads.e ∧
      s.pads.level .bl = .driven s.pads.bl ∧ ∀ i : Fin 8, s.pads.level (.dl i) = .driven (s.pads.dl.getLsbD i)) ∧
    (∀ t : State, s.Inv → step s = .next t → t.pads ≠ s.pads →
      (s.pins.rstN = false ∧ t.pads = { rs := false, e := false, bl := false, dl := 0, oe := false }) ∨
      (s.pins.rstN = true ∧ ∃ a, s.current = some a ∧ t.pads = a.apply s.pads ∧
        (t.pads.oe ≠ s.pads.oe →
          a = .setOE true ∧ s.initState = .initializing ∧ ∀ q : Pad, t.pads.level q = .driven false))) ∧
    (s.Inv → s.initState ≠ .unconfigured → s.current ≠ some (.setOE true) → ∀ q : Pad, s.pads.level q ≠ .highZ)
end

