-- ==== Sys2Proof/Laws/State.lean ====
section
/-! SUPPORT. What each named update of State does to each field, one lemma per field per update, so that no later proof
unfolds a record update. -/

namespace Sys2Proof.Machine


/-! ### raise -/

@[simp] theorem State.raise_initState (e : ErrorCode) (s : State) : (s.raise e).initState = s.initState := rfl
@[simp] theorem State.raise_errors (e : ErrorCode) (s : State) : (s.raise e).errors = s.errors.set e := rfl
@[simp] theorem State.raise_config (e : ErrorCode) (s : State) : (s.raise e).config = s.config := rfl
@[simp] theorem State.raise_acfg (e : ErrorCode) (s : State) : (s.raise e).acfg = s.acfg := rfl
@[simp] theorem State.raise_masks (e : ErrorCode) (s : State) : (s.raise e).masks = s.masks := rfl
@[simp] theorem State.raise_pads (e : ErrorCode) (s : State) : (s.raise e).pads = s.pads := rfl
@[simp] theorem State.raise_current (e : ErrorCode) (s : State) : (s.raise e).current = s.current := rfl
@[simp] theorem State.raise_queue (e : ErrorCode) (s : State) : (s.raise e).queue = s.queue := rfl
@[simp] theorem State.raise_waitCount (e : ErrorCode) (s : State) : (s.raise e).waitCount = s.waitCount := rfl
@[simp] theorem State.raise_repeatLeft (e : ErrorCode) (s : State) : (s.raise e).repeatLeft = s.repeatLeft := rfl
@[simp] theorem State.raise_hrdata (e : ErrorCode) (s : State) : (s.raise e).hrdata = s.hrdata := rfl
@[simp] theorem State.raise_host (e : ErrorCode) (s : State) : (s.raise e).host = s.host := rfl
@[simp] theorem State.raise_draws (e : ErrorCode) (s : State) : (s.raise e).draws = s.draws := rfl

/-! ### load -/

@[simp] theorem State.load_initState (acts : List Action) (s : State) : (s.load acts).initState = s.initState := by cases acts <;> rfl
@[simp] theorem State.load_errors (acts : List Action) (s : State) : (s.load acts).errors = s.errors := by cases acts <;> rfl
@[simp] theorem State.load_config (acts : List Action) (s : State) : (s.load acts).config = s.config := by cases acts <;> rfl
@[simp] theorem State.load_acfg (acts : List Action) (s : State) : (s.load acts).acfg = s.acfg := by cases acts <;> rfl
@[simp] theorem State.load_masks (acts : List Action) (s : State) : (s.load acts).masks = s.masks := by cases acts <;> rfl
@[simp] theorem State.load_pads (acts : List Action) (s : State) : (s.load acts).pads = s.pads := by cases acts <;> rfl
@[simp] theorem State.load_repeatLeft (acts : List Action) (s : State) : (s.load acts).repeatLeft = s.repeatLeft := by cases acts <;> rfl
@[simp] theorem State.load_hrdata (acts : List Action) (s : State) : (s.load acts).hrdata = s.hrdata := by cases acts <;> rfl
@[simp] theorem State.load_host (acts : List Action) (s : State) : (s.load acts).host = s.host := by cases acts <;> rfl
@[simp] theorem State.load_draws (acts : List Action) (s : State) : (s.load acts).draws = s.draws := by cases acts <;> rfl
@[simp] theorem State.load_current (acts : List Action) (s : State) : (s.load acts).current = acts.head? := by
  cases acts <;> rfl
@[simp] theorem State.load_queue (acts : List Action) (s : State) : (s.load acts).queue = acts.tail := by
  cases acts <;> rfl
@[simp] theorem State.load_nil_waitCount (s : State) : (s.load []).waitCount = 0 := rfl
@[simp] theorem State.load_cons_waitCount (a : Action) (acts : List Action) (s : State) :
    (s.load (a :: acts)).waitCount = a.waitLoad := rfl

/-! ### startMoves -/

@[simp] theorem State.startMoves_initState (n : Nat) (s : State) : (s.startMoves n).initState = s.initState := by cases n <;> simp [State.startMoves]
@[simp] theorem State.startMoves_errors (n : Nat) (s : State) : (s.startMoves n).errors = s.errors := by cases n <;> simp [State.startMoves]
@[simp] theorem State.startMoves_config (n : Nat) (s : State) : (s.startMoves n).config = s.config := by cases n <;> simp [State.startMoves]
@[simp] theorem State.startMoves_acfg (n : Nat) (s : State) : (s.startMoves n).acfg = s.acfg := by cases n <;> simp [State.startMoves]
@[simp] theorem State.startMoves_masks (n : Nat) (s : State) : (s.startMoves n).masks = s.masks := by cases n <;> simp [State.startMoves]
@[simp] theorem State.startMoves_pads (n : Nat) (s : State) : (s.startMoves n).pads = s.pads := by cases n <;> simp [State.startMoves]
@[simp] theorem State.startMoves_hrdata (n : Nat) (s : State) : (s.startMoves n).hrdata = s.hrdata := by cases n <;> simp [State.startMoves]
@[simp] theorem State.startMoves_host (n : Nat) (s : State) : (s.startMoves n).host = s.host := by cases n <;> simp [State.startMoves]
@[simp] theorem State.startMoves_draws (n : Nat) (s : State) : (s.startMoves n).draws = s.draws := by cases n <;> simp [State.startMoves]
@[simp] theorem State.startMoves_repeatLeft (n : Nat) (s : State) : (s.startMoves n).repeatLeft = n - 1 := by
  cases n <;> simp [State.startMoves]

/-! ### write -/

@[simp] theorem State.write_initState (p : Byte) (sel : Bool) (more : List Action) (s : State) :
    (s.write p sel more).initState = s.initState := by simp [State.write]
@[simp] theorem State.write_errors (p : Byte) (sel : Bool) (more : List Action) (s : State) :
    (s.write p sel more).errors = s.errors := by simp [State.write]
@[simp] theorem State.write_config (p : Byte) (sel : Bool) (more : List Action) (s : State) :
    (s.write p sel more).config = s.config := by simp [State.write]
@[simp] theorem State.write_acfg (p : Byte) (sel : Bool) (more : List Action) (s : State) :
    (s.write p sel more).acfg = s.acfg := by simp [State.write]
@[simp] theorem State.write_masks (p : Byte) (sel : Bool) (more : List Action) (s : State) :
    (s.write p sel more).masks = s.masks := by simp [State.write]
@[simp] theorem State.write_pads (p : Byte) (sel : Bool) (more : List Action) (s : State) :
    (s.write p sel more).pads = s.pads := by simp [State.write]
@[simp] theorem State.write_repeatLeft (p : Byte) (sel : Bool) (more : List Action) (s : State) :
    (s.write p sel more).repeatLeft = s.repeatLeft := by simp [State.write]
@[simp] theorem State.write_hrdata (p : Byte) (sel : Bool) (more : List Action) (s : State) :
    (s.write p sel more).hrdata = s.hrdata := by simp [State.write]
@[simp] theorem State.write_host (p : Byte) (sel : Bool) (more : List Action) (s : State) :
    (s.write p sel more).host = s.host := by simp [State.write]
@[simp] theorem State.write_draws (p : Byte) (sel : Bool) (more : List Action) (s : State) :
    (s.write p sel more).draws = s.draws := by simp [State.write]

/-! ### toggle -/

@[simp] theorem State.toggle_initState (k : Nat) (on : Bool) (s : State) :
    (s.toggle k on).initState = s.initState := by simp [State.toggle]
@[simp] theorem State.toggle_errors (k : Nat) (on : Bool) (s : State) :
    (s.toggle k on).errors = s.errors := by simp [State.toggle]
@[simp] theorem State.toggle_config (k : Nat) (on : Bool) (s : State) :
    (s.toggle k on).config = s.config := by simp [State.toggle]
@[simp] theorem State.toggle_acfg (k : Nat) (on : Bool) (s : State) :
    (s.toggle k on).acfg = s.acfg := by simp [State.toggle]
@[simp] theorem State.toggle_masks (k : Nat) (on : Bool) (s : State) :
    (s.toggle k on).masks = { s.masks with dc := setMaskBit k on s.masks.dc } := by simp [State.toggle]
@[simp] theorem State.toggle_pads (k : Nat) (on : Bool) (s : State) :
    (s.toggle k on).pads = s.pads := by simp [State.toggle]
@[simp] theorem State.toggle_repeatLeft (k : Nat) (on : Bool) (s : State) :
    (s.toggle k on).repeatLeft = s.repeatLeft := by simp [State.toggle]
@[simp] theorem State.toggle_hrdata (k : Nat) (on : Bool) (s : State) :
    (s.toggle k on).hrdata = s.hrdata := by simp [State.toggle]
@[simp] theorem State.toggle_host (k : Nat) (on : Bool) (s : State) :
    (s.toggle k on).host = s.host := by simp [State.toggle]
@[simp] theorem State.toggle_draws (k : Nat) (on : Bool) (s : State) :
    (s.toggle k on).draws = s.draws := by simp [State.toggle]

/-! ### begin -/

@[simp] theorem State.begin_initState (s : State) : (s.begin).initState = .initializing := by simp [State.begin]
@[simp] theorem State.begin_errors (s : State) : (s.begin).errors = s.errors := by simp [State.begin]
@[simp] theorem State.begin_config (s : State) : (s.begin).config = s.config := by simp [State.begin]
@[simp] theorem State.begin_acfg (s : State) : (s.begin).acfg = s.config := by simp [State.begin]
@[simp] theorem State.begin_masks (s : State) : (s.begin).masks = MaskTable.seeded s.config := by simp [State.begin]
@[simp] theorem State.begin_pads (s : State) : (s.begin).pads = s.pads := by simp [State.begin]
@[simp] theorem State.begin_repeatLeft (s : State) : (s.begin).repeatLeft = s.repeatLeft := by simp [State.begin]
@[simp] theorem State.begin_hrdata (s : State) : (s.begin).hrdata = s.hrdata := by simp [State.begin]
@[simp] theorem State.begin_host (s : State) : (s.begin).host = s.host := by simp [State.begin]
@[simp] theorem State.begin_draws (s : State) : (s.begin).draws = s.draws := by simp [State.begin]

/-! ### teardown -/

@[simp] theorem State.teardown_initState (s : State) : (s.teardown).initState = .unconfigured := rfl
@[simp] theorem State.teardown_errors (s : State) : (s.teardown).errors = s.errors := rfl
@[simp] theorem State.teardown_config (s : State) : (s.teardown).config = s.config := rfl
@[simp] theorem State.teardown_acfg (s : State) : (s.teardown).acfg = .zero := rfl
@[simp] theorem State.teardown_masks (s : State) : (s.teardown).masks = .unseeded := rfl
@[simp] theorem State.teardown_pads (s : State) : (s.teardown).pads = s.pads := rfl
@[simp] theorem State.teardown_current (s : State) : (s.teardown).current = s.current := rfl
@[simp] theorem State.teardown_queue (s : State) : (s.teardown).queue = s.queue := rfl
@[simp] theorem State.teardown_waitCount (s : State) : (s.teardown).waitCount = s.waitCount := rfl
@[simp] theorem State.teardown_repeatLeft (s : State) : (s.teardown).repeatLeft = s.repeatLeft := rfl
@[simp] theorem State.teardown_hrdata (s : State) : (s.teardown).hrdata = s.hrdata := rfl
@[simp] theorem State.teardown_host (s : State) : (s.teardown).host = s.host := rfl
@[simp] theorem State.teardown_draws (s : State) : (s.teardown).draws = s.draws := rfl

/-! ### resetBlock -/

@[simp] theorem State.resetBlock_initState (s : State) : (s.resetBlock).initState = State.reset.initState := rfl
@[simp] theorem State.resetBlock_errors (s : State) : (s.resetBlock).errors = State.reset.errors := rfl
@[simp] theorem State.resetBlock_config (s : State) : (s.resetBlock).config = State.reset.config := rfl
@[simp] theorem State.resetBlock_acfg (s : State) : (s.resetBlock).acfg = State.reset.acfg := rfl
@[simp] theorem State.resetBlock_masks (s : State) : (s.resetBlock).masks = State.reset.masks := rfl
@[simp] theorem State.resetBlock_pads (s : State) : (s.resetBlock).pads = State.reset.pads := rfl
@[simp] theorem State.resetBlock_current (s : State) : (s.resetBlock).current = State.reset.current := rfl
@[simp] theorem State.resetBlock_queue (s : State) : (s.resetBlock).queue = State.reset.queue := rfl
@[simp] theorem State.resetBlock_waitCount (s : State) : (s.resetBlock).waitCount = State.reset.waitCount := rfl
@[simp] theorem State.resetBlock_repeatLeft (s : State) : (s.resetBlock).repeatLeft = State.reset.repeatLeft := rfl
@[simp] theorem State.resetBlock_hrdata (s : State) : (s.resetBlock).hrdata = State.reset.hrdata := rfl
@[simp] theorem State.resetBlock_host (s : State) : (s.resetBlock).host = s.host := rfl
@[simp] theorem State.resetBlock_draws (s : State) : (s.resetBlock).draws = s.draws := rfl

/-! ### advance -/

@[simp] theorem State.advance_initState (s : State) : (s.advance).initState = s.initState := by unfold State.advance; split <;> simp
@[simp] theorem State.advance_errors (s : State) : (s.advance).errors = s.errors := by unfold State.advance; split <;> simp
@[simp] theorem State.advance_config (s : State) : (s.advance).config = s.config := by unfold State.advance; split <;> simp
@[simp] theorem State.advance_acfg (s : State) : (s.advance).acfg = s.acfg := by unfold State.advance; split <;> simp
@[simp] theorem State.advance_masks (s : State) : (s.advance).masks = s.masks := by unfold State.advance; split <;> simp
@[simp] theorem State.advance_pads (s : State) : (s.advance).pads = s.pads := by unfold State.advance; split <;> simp
@[simp] theorem State.advance_hrdata (s : State) : (s.advance).hrdata = s.hrdata := by unfold State.advance; split <;> simp
@[simp] theorem State.advance_host (s : State) : (s.advance).host = s.host := by unfold State.advance; split <;> simp
@[simp] theorem State.advance_draws (s : State) : (s.advance).draws = s.draws := by unfold State.advance; split <;> simp

/-! ### afterAction, away from AllLow, and in every case -/

@[simp] theorem State.afterAction_initState (a : Action) (s : State) :
    (s.afterAction a).initState = if a = .allLow then s.teardown.initState else s.initState := by unfold State.afterAction; split <;> rfl
@[simp] theorem State.afterAction_errors (a : Action) (s : State) : (s.afterAction a).errors = s.errors := by unfold State.afterAction; split <;> rfl
@[simp] theorem State.afterAction_config (a : Action) (s : State) : (s.afterAction a).config = s.config := by unfold State.afterAction; split <;> rfl
@[simp] theorem State.afterAction_acfg (a : Action) (s : State) :
    (s.afterAction a).acfg = if a = .allLow then s.teardown.acfg else s.acfg := by unfold State.afterAction; split <;> rfl
@[simp] theorem State.afterAction_masks (a : Action) (s : State) :
    (s.afterAction a).masks = if a = .allLow then s.teardown.masks else s.masks := by unfold State.afterAction; split <;> rfl
@[simp] theorem State.afterAction_pads (a : Action) (s : State) : (s.afterAction a).pads = s.pads := by unfold State.afterAction; split <;> rfl
@[simp] theorem State.afterAction_current (a : Action) (s : State) : (s.afterAction a).current = s.current := by unfold State.afterAction; split <;> rfl
@[simp] theorem State.afterAction_queue (a : Action) (s : State) : (s.afterAction a).queue = s.queue := by unfold State.afterAction; split <;> rfl
@[simp] theorem State.afterAction_waitCount (a : Action) (s : State) : (s.afterAction a).waitCount = s.waitCount := by unfold State.afterAction; split <;> rfl
@[simp] theorem State.afterAction_repeatLeft (a : Action) (s : State) : (s.afterAction a).repeatLeft = s.repeatLeft := by unfold State.afterAction; split <;> rfl
@[simp] theorem State.afterAction_hrdata (a : Action) (s : State) : (s.afterAction a).hrdata = s.hrdata := by unfold State.afterAction; split <;> rfl
@[simp] theorem State.afterAction_host (a : Action) (s : State) : (s.afterAction a).host = s.host := by unfold State.afterAction; split <;> rfl
@[simp] theorem State.afterAction_draws (a : Action) (s : State) : (s.afterAction a).draws = s.draws := by unfold State.afterAction; split <;> rfl

/-! ### settleInit -/

@[simp] theorem State.settleInit_initState (s : State) :
    s.settleInit.initState = if s.initState = .initializing ∧ s.busy = false then .ready else s.initState := by
  unfold State.settleInit; split <;> rfl
@[simp] theorem State.settleInit_errors (s : State) : (s.settleInit).errors = s.errors := by unfold State.settleInit; split <;> rfl
@[simp] theorem State.settleInit_config (s : State) : (s.settleInit).config = s.config := by unfold State.settleInit; split <;> rfl
@[simp] theorem State.settleInit_acfg (s : State) : (s.settleInit).acfg = s.acfg := by unfold State.settleInit; split <;> rfl
@[simp] theorem State.settleInit_masks (s : State) : (s.settleInit).masks = s.masks := by unfold State.settleInit; split <;> rfl
@[simp] theorem State.settleInit_pads (s : State) : (s.settleInit).pads = s.pads := by unfold State.settleInit; split <;> rfl
@[simp] theorem State.settleInit_current (s : State) : (s.settleInit).current = s.current := by unfold State.settleInit; split <;> rfl
@[simp] theorem State.settleInit_queue (s : State) : (s.settleInit).queue = s.queue := by unfold State.settleInit; split <;> rfl
@[simp] theorem State.settleInit_waitCount (s : State) : (s.settleInit).waitCount = s.waitCount := by unfold State.settleInit; split <;> rfl
@[simp] theorem State.settleInit_repeatLeft (s : State) : (s.settleInit).repeatLeft = s.repeatLeft := by unfold State.settleInit; split <;> rfl
@[simp] theorem State.settleInit_hrdata (s : State) : (s.settleInit).hrdata = s.hrdata := by unfold State.settleInit; split <;> rfl
@[simp] theorem State.settleInit_host (s : State) : (s.settleInit).host = s.host := by unfold State.settleInit; split <;> rfl
@[simp] theorem State.settleInit_draws (s : State) : (s.settleInit).draws = s.draws := by unfold State.settleInit; split <;> rfl

/-! ### complete -/

@[simp] theorem State.complete_errors (a : Action) (s : State) : (s.complete a).errors = s.errors := by simp [State.complete]
@[simp] theorem State.complete_config (a : Action) (s : State) : (s.complete a).config = s.config := by simp [State.complete]
@[simp] theorem State.complete_hrdata (a : Action) (s : State) : (s.complete a).hrdata = s.hrdata := by simp [State.complete]
@[simp] theorem State.complete_host (a : Action) (s : State) : (s.complete a).host = s.host := by simp [State.complete]
@[simp] theorem State.complete_draws (a : Action) (s : State) : (s.complete a).draws = s.draws := by simp [State.complete]
@[simp] theorem State.complete_pads (a : Action) (s : State) : (s.complete a).pads = a.apply s.pads := by
  simp [State.complete]

/-! ### seqCycle -/

@[simp] theorem State.seqCycle_errors (s : State) : (s.seqCycle).errors = s.errors := by unfold State.seqCycle; (repeat' split) <;> simp
@[simp] theorem State.seqCycle_config (s : State) : (s.seqCycle).config = s.config := by unfold State.seqCycle; (repeat' split) <;> simp
@[simp] theorem State.seqCycle_hrdata (s : State) : (s.seqCycle).hrdata = s.hrdata := by unfold State.seqCycle; (repeat' split) <;> simp
@[simp] theorem State.seqCycle_host (s : State) : (s.seqCycle).host = s.host := by unfold State.seqCycle; (repeat' split) <;> simp
@[simp] theorem State.seqCycle_draws (s : State) : (s.seqCycle).draws = s.draws := by unfold State.seqCycle; (repeat' split) <;> simp

/-! ### endCycle -/

@[simp] theorem State.endCycle_initState (s : State) (read : Option Word) (t : State) :
    (s.endCycle read t).initState = t.initState := rfl
@[simp] theorem State.endCycle_errors (s : State) (read : Option Word) (t : State) :
    (s.endCycle read t).errors = t.errors := rfl
@[simp] theorem State.endCycle_config (s : State) (read : Option Word) (t : State) :
    (s.endCycle read t).config = t.config := rfl
@[simp] theorem State.endCycle_acfg (s : State) (read : Option Word) (t : State) :
    (s.endCycle read t).acfg = t.acfg := rfl
@[simp] theorem State.endCycle_masks (s : State) (read : Option Word) (t : State) :
    (s.endCycle read t).masks = t.masks := rfl
@[simp] theorem State.endCycle_pads (s : State) (read : Option Word) (t : State) :
    (s.endCycle read t).pads = t.pads := rfl
@[simp] theorem State.endCycle_current (s : State) (read : Option Word) (t : State) :
    (s.endCycle read t).current = t.current := rfl
@[simp] theorem State.endCycle_queue (s : State) (read : Option Word) (t : State) :
    (s.endCycle read t).queue = t.queue := rfl
@[simp] theorem State.endCycle_waitCount (s : State) (read : Option Word) (t : State) :
    (s.endCycle read t).waitCount = t.waitCount := rfl
@[simp] theorem State.endCycle_repeatLeft (s : State) (read : Option Word) (t : State) :
    (s.endCycle read t).repeatLeft = t.repeatLeft := rfl
@[simp] theorem State.endCycle_hrdata (s : State) (read : Option Word) (t : State) :
    (s.endCycle read t).hrdata = read := rfl
@[simp] theorem State.endCycle_host (s : State) (read : Option Word) (t : State) :
    (s.endCycle read t).host = s.hostAfter := rfl
@[simp] theorem State.endCycle_draws (s : State) (read : Option Word) (t : State) :
    (s.endCycle read t).draws = s.draws + 1 := rfl

end Sys2Proof.Machine
end

