-- ==== Sys2Proof/Laws/Sequencer.lean ====
section
/-! SUPPORT. What the operations on the sequencer do, said once: the pending actions, BUSY and the cycles left, under loading,
under the start of the next action, under the completion of one, and in one cycle. -/

namespace Sys2Proof.Machine

/-! ### The bus writer -/

theorem busWrite_ne_nil (width : Bool) (p : Byte) (sel : Bool) : busWrite width p sel ≠ [] := by
  cases width <;> simp [busWrite, transfer]

theorem pulse_duration : actionsDuration pulse = pulseCycles := by
  simp [actionsDuration, pulse, Action.duration, Delay.cycles, pulseCycles]
  omega

theorem actionsDuration_append (xs ys : List Action) :
    actionsDuration (xs ++ ys) = actionsDuration xs + actionsDuration ys := by
  simp [actionsDuration]

theorem actionsDuration_cons (a : Action) (xs : List Action) :
    actionsDuration (a :: xs) = a.duration + actionsDuration xs := by
  simp [actionsDuration]

@[simp] theorem actionsDuration_nil : actionsDuration [] = 0 := rfl

/-- A bus write takes D_W cycles (70_reset_and_hazards.md R136). -/
theorem busWrite_duration (width : Bool) (p : Byte) (sel : Bool) :
    actionsDuration (busWrite width p sel) = writeCycles width := by
  cases width <;>
    simp [busWrite, transfer, actionsDuration_append, actionsDuration_cons, pulse_duration, Action.duration, writeCycles]
  omega

/-! ### The pads' outputs -/

/-- With OE = 0 every pad is high-impedance (10_state.md R33). -/
theorem level_highZ {p : Pads} (h : p.oe = false) (q : Pad) : p.level q = .highZ := by simp [Pads.level, h]

/-- With OE = 1 every pad drives its latch (10_state.md R33). -/
theorem level_driven {p : Pads} (h : p.oe = true) (q : Pad) : p.level q = .driven (p.latch q) := by simp [Pads.level, h]

/-- The latch of each pad by name. -/
@[simp] theorem latch_rs (p : Pads) : p.latch .rs = p.rs := rfl
@[simp] theorem latch_e (p : Pads) : p.latch .e = p.e := rfl
@[simp] theorem latch_bl (p : Pads) : p.latch .bl = p.bl := rfl
@[simp] theorem latch_dl (p : Pads) (i : Fin 8) : p.latch (.dl i) = p.dl.getLsbD i := rfl

/-! ### Durations -/

theorem delay_cycles_pos (t : Delay) : 1 ≤ t.cycles := by
  have h := Config.delays_ordered
  cases t <;> simp only [Delay.cycles] <;> omega

theorem duration_pos (a : Action) : 1 ≤ a.duration := by
  cases a <;> simp [Action.duration, delay_cycles_pos]

/-- An action that has just started has its whole duration ahead of it. -/
@[simp] theorem cyclesLeft_waitLoad (a : Action) : a.cyclesLeft a.waitLoad = a.duration := by
  cases a <;> rfl

/-! ### BUSY and the pending actions -/

theorem busy_eq_pending (s : State) : s.busy = !s.pending.isEmpty := by
  have h := busWrite_ne_nil s.acfg.width moveLeftByte false
  rcases hc : s.current with _ | a <;> rcases hq : s.queue with _ | ⟨b, q⟩ <;> rcases hr : s.repeatLeft with _ | n <;>
    simp [State.busy, State.pending, hc, hq, hr, List.replicate_succ, h]

/-- BUSY = 0 exactly where no action is pending. -/
theorem busy_eq_false_iff (s : State) : s.busy = false ↔ s.pending = [] := by
  simp [busy_eq_pending]

theorem idle_fields {s : State} (h : s.busy = false) : s.current = none ∧ s.queue = [] ∧ s.repeatLeft = 0 := by
  simpa [State.busy, and_assoc] using h

/-- The pending actions of a loaded sequencer: the list, then the writes of the repeat counter. -/
theorem pending_load (acts : List Action) (s : State) :
    (s.load acts).pending
      = acts ++ (List.replicate s.repeatLeft (busWrite s.acfg.width moveLeftByte false)).flatten := by
  cases acts <;> simp [State.pending]

/-- n moves are n writes of the move-left byte (10_state.md R36). -/
theorem pending_startMoves (n : Nat) (s : State) :
    (s.startMoves n).pending = (List.replicate n (busWrite s.acfg.width moveLeftByte false)).flatten := by
  cases n <;> simp [State.startMoves, pending_load, List.replicate_succ]

/-- The sequencer's next action starts: what was pending after the current action is pending now. -/
theorem pending_advance (s : State) :
    s.advance.pending
      = s.queue ++ (List.replicate s.repeatLeft (busWrite s.acfg.width moveLeftByte false)).flatten := by
  unfold State.advance
  split <;> simp_all [pending_startMoves, pending_load]

/-- A write as a whole command, from an idle sequencer. -/
theorem pending_write {s : State} (h : s.busy = false) (p : Byte) (sel : Bool) (more : List Action) :
    (s.write p sel more).pending = busWrite s.acfg.width p sel ++ more := by
  simp [State.write, pending_load, (idle_fields h).2.2]

/-- A toggle sends the updated display-control byte. -/
theorem pending_toggle {s : State} (h : s.busy = false) (k : Nat) (on : Bool) :
    (s.toggle k on).pending = busWrite s.acfg.width (setMaskBit k on s.masks.dc) false := by
  simp [State.toggle, State.write, pending_load, (idle_fields h).2.2]

/-- INIT's sequence is pending once it has begun. -/
theorem pending_begin {s : State} (h : s.busy = false) :
    s.begin.pending = initActions s.config.width (MaskTable.seeded s.config) := by
  simp [State.begin, pending_load, (idle_fields h).2.2]

/-- The pending actions look at the sequencer and at ACFG.WIDTH only. -/
theorem pending_congr {s t : State} (hc : t.current = s.current) (hq : t.queue = s.queue)
    (hr : t.repeatLeft = s.repeatLeft) (ha : t.acfg = s.acfg) : t.pending = s.pending := by
  simp [State.pending, hc, hq, hr, ha]

theorem busy_congr {s t : State} (hc : t.current = s.current) (hq : t.queue = s.queue)
    (hr : t.repeatLeft = s.repeatLeft) : t.busy = s.busy := by
  simp [State.busy, hc, hq, hr]

/-- With a current action, the pending actions are it and the rest. -/
theorem pending_of_current {s : State} {a : Action} (h : s.current = some a) :
    s.pending
      = a :: (s.queue ++ (List.replicate s.repeatLeft (busWrite s.acfg.width moveLeftByte false)).flatten) := by
  simp [State.pending, h]

@[simp] theorem pending_settleInit (s : State) : s.settleInit.pending = s.pending :=
  pending_congr (by simp) (by simp) (by simp) (by simp)

@[simp] theorem busy_settleInit (s : State) : s.settleInit.busy = s.busy :=
  busy_congr (by simp) (by simp) (by simp)

/-- An action that is not AllLow completes: the rest is pending. -/
theorem pending_complete {s : State} {a : Action} (ha : a ≠ .allLow) :
    (s.complete a).pending
      = s.queue ++ (List.replicate s.repeatLeft (busWrite s.acfg.width moveLeftByte false)).flatten := by
  simp [State.complete, pending_advance, ha]

/-- What one cycle of the sequencer can do: start the next action, complete the current one, or count its wait down. -/
theorem seqCycle_cases (s : State) :
    (s.current = none ∧ s.seqCycle = s.advance) ∨
    (∃ a, s.current = some a ∧ s.waitCount ≤ 1 ∧ s.seqCycle = s.complete a) ∨
    (∃ a, s.current = some a ∧ 1 < s.waitCount ∧ s.seqCycle = { s with waitCount := s.waitCount - 1 }) := by
  rcases hc : s.current with _ | a
  · exact .inl ⟨rfl, by simp [State.seqCycle, hc]⟩
  · by_cases hw : s.waitCount ≤ 1
    · exact .inr (.inl ⟨a, rfl, hw, by simp [State.seqCycle, hc, hw]⟩)
    · exact .inr (.inr ⟨a, rfl, Nat.lt_of_not_le hw, by simp [State.seqCycle, hc, hw]⟩)

/-- Only the completion of AllLow changes the masks and ACFG in a cycle of the sequencer (42_lifecycle.md R103). -/
theorem seqCycle_masks_acfg (s : State) :
    (s.seqCycle.masks = s.masks ∧ s.seqCycle.acfg = s.acfg) ∨
    (s.current = some .allLow ∧ s.seqCycle.masks = .unseeded ∧ s.seqCycle.acfg = .zero) := by
  rcases seqCycle_cases s with ⟨-, h⟩ | ⟨a, hc, -, h⟩ | ⟨a, -, -, h⟩
  · exact .inl (by simp [h])
  · by_cases ha : a = .allLow
    · exact .inr (by simp [h, ha, hc, State.complete])
    · exact .inl (by simp [h, ha, State.complete])
  · exact .inl (by simp [h])

/-- A cycle of the sequencer changes the pads only as the current action says (00_scope.md R12). -/
theorem seqCycle_pads (s : State) :
    s.seqCycle.pads = s.pads ∨ ∃ a, s.current = some a ∧ s.seqCycle.pads = a.apply s.pads := by
  rcases seqCycle_cases s with ⟨-, h⟩ | ⟨a, hc, -, h⟩ | ⟨a, -, -, h⟩
  · exact .inl (by simp [h])
  · exact .inr ⟨a, hc, by simp [h]⟩
  · exact .inl (by simp [h])

/-- The sequencer neither reads nor writes the error bits, CONFIG, or the model's own fields. -/
theorem seqCycle_environment (s : State) (e : Errors) (c : CfgFields) (h : Option Word) (l : List HostAction) (d : Nat) :
    ({ s with errors := e, config := c, hrdata := h, host := l, draws := d } : State).seqCycle
      = { s.seqCycle with errors := e, config := c, hrdata := h, host := l, draws := d } := by
  obtain ⟨_, _, _, acfg, _, _, current, queue, _, repeatLeft, _, _, _⟩ := s
  rcases current with _ | a
  · rcases queue with _ | ⟨b, q⟩
    · rcases repeatLeft with _ | n
      · rfl
      · cases hl : busWrite acfg.width moveLeftByte false <;>
          simp [State.seqCycle, State.advance, State.startMoves, State.load, hl]
    · rfl
  · simp only [State.seqCycle]
    split
    · simp only [State.complete, State.afterAction, State.advance, State.settleInit, State.startMoves, State.teardown]
      split <;> rename_i h <;> rcases queue with _ | ⟨b, q⟩ <;> rcases repeatLeft with _ | n <;>
        simp [State.load, State.busy] <;> (try split) <;> (try split) <;> simp_all
    · rfl

/-- Starting the next action leaves the current action at its full length. -/
theorem load_remaining (acts : List Action) (s : State) :
    (s.load acts).remaining
      = actionsDuration acts
        + if acts = [] then 0 else s.repeatLeft * actionsDuration (busWrite s.acfg.width moveLeftByte false) := by
  cases acts <;> simp [State.remaining, actionsDuration_cons]

/-- n moves take n times D_W cycles. -/
theorem startMoves_remaining (n : Nat) (s : State) :
    (s.startMoves n).remaining = n * writeCycles s.acfg.width := by
  cases n <;> simp [State.startMoves, load_remaining, busWrite_ne_nil, busWrite_duration, Nat.succ_mul, Nat.add_comm]

/-- The next action starts: what followed the current action is left. -/
theorem advance_remaining (s : State) :
    s.advance.remaining = actionsDuration s.queue + s.repeatLeft * writeCycles s.acfg.width := by
  unfold State.advance
  split <;> rename_i hq <;> simp [hq, startMoves_remaining, load_remaining, busWrite_duration]

end Sys2Proof.Machine
end

