-- ==== Sys2Proof/Laws/Bus.lean ====
section
/-! SUPPORT. What a command, a host write and a whole cycle can do, said once: the guards, the inversion of `exec`, of
`hostWrite` and of `step`, and that each of them answers a next state. -/

namespace Sys2Proof.Machine

/-! ### Guards -/

@[simp] theorem onNext_next (s : State) (f : State → State) : onNext (.next s) f = .next (f s) := rfl

theorem onNext_eq_next {o : Result} {f : State → State} {t : State} (h : onNext o f = .next t) :
    ∃ u, o = .next u ∧ t = f u := by
  cases o with
  | next u => exact ⟨u, rfl, by simpa [onNext] using h.symm⟩
  | fault r => cases r
  | refused r => simp [onNext] at h

/-- What a guarded command does: OVR, STERR, or its body. -/
theorem guarded_cases (allowed : InitState) (s : State) (body : State → Result) :
    (s.busy = true ∧ s.guarded allowed body = .next (s.raise .ovr)) ∨
    (s.busy = false ∧ s.initState ≠ allowed ∧ s.guarded allowed body = .next (s.raise .stErr)) ∨
    (s.busy = false ∧ s.initState = allowed ∧ s.guarded allowed body = body s) := by
  unfold State.guarded
  cases hb : s.busy <;> by_cases ha : s.initState = allowed <;> simp [ha]

theorem guarded_busy {s : State} (h : s.busy = true) (allowed : InitState) (body : State → Result) :
    s.guarded allowed body = .next (s.raise .ovr) := by
  simp [State.guarded, h]

theorem guarded_accept {s : State} (h : s.busy = false) {allowed : InitState} (ha : s.initState = allowed)
    (body : State → Result) : s.guarded allowed body = body s := by
  simp [State.guarded, h, ha]

theorem guarded_wrongState {s : State} (h : s.busy = false) {allowed : InitState} (ha : s.initState ≠ allowed)
    (body : State → Result) : s.guarded allowed body = .next (s.raise .stErr) := by
  simp [State.guarded, h, ha]

theorem runtime_accept {s : State} (h : s.busy = false) (ha : s.initState = .ready) (body : State → State) :
    s.runtime body = .next (body s) := guarded_accept h ha _

/-! ### exec -/

/-- The STATE a command is accepted in (60_exceptions.md R111). -/
def allowedState : Instr → InitState
  | .init => .unconfigured
  | .clear => .ready
  | .home => .ready
  | .cursorBlink _ => .ready
  | .cursorVisible _ => .ready
  | .displayOn _ => .ready
  | .moveLeft _ => .ready
  | .setCursor _ _ => .ready
  | .printChar _ => .ready
  | .backlight _ => .ready
  | .close => .ready

/-- The state an accepted runtime command or CLOSE leaves. INIT has its own lemma. -/
def acceptedState (s : State) : Instr → State
  | .init => s
  | .clear => s.write clearByte false [.wait .clear]
  | .home => s.write homeByte false []
  | .cursorBlink on => s.toggle dcBlink on
  | .cursorVisible on => s.toggle dcCursor on
  | .displayOn on => s.toggle dcDisplay on
  | .moveLeft n => s.startMoves n
  | .setCursor row col => if s.acfg.inRange row col then s.write (setAddressByte row col) false [] else s
  | .printChar g => s.write g true []
  | .backlight on => s.load [.setBL on]
  | .close => s.load [.allLow]

/-- What a command does once its guards have passed. -/
def commandBody (i : Instr) (t : State) : Result :=
  match i with
  | .init => .next (if t.config.valid = false then t.raise .cfgErr
      else if t.pinctlOk = false then t.raise .resErr else t.begin)
  | _ => .next (acceptedState t i)

/-- Every command is its guards and then its body. -/
theorem exec_eq_guarded (i : Instr) (s : State) : exec i s = s.guarded (allowedState i) (commandBody i) := by
  cases i with
  | init =>
    have body : (fun t : State => if t.config.valid = false then (.next (t.raise .cfgErr) : Result)
        else if t.pinctlOk = false then .next (t.raise .resErr) else .next t.begin) = commandBody .init := by
      funext t
      unfold commandBody
      split <;> [rfl; (split <;> rfl)]
    rw [← body]
    rfl
  | _ => rfl

theorem exec_busy {s : State} (h : s.busy = true) (i : Instr) : exec i s = .next (s.raise .ovr) := by
  rw [exec_eq_guarded, guarded_busy h]

theorem exec_wrongState {s : State} (h : s.busy = false) {i : Instr} (ha : s.initState ≠ allowedState i) :
    exec i s = .next (s.raise .stErr) := by
  rw [exec_eq_guarded, guarded_wrongState h ha]

theorem exec_accept {s : State} (h : s.busy = false) (ha : s.initState = .ready) {i : Instr} (hi : i ≠ .init) :
    exec i s = .next (acceptedState s i) := by
  rw [exec_eq_guarded, guarded_accept h (by rw [ha]; cases i <;> first | rfl | exact absurd rfl hi)]
  cases i <;> first | rfl | exact absurd rfl hi

theorem exec_init {s : State} (h : s.busy = false) (ha : s.initState = .unconfigured) :
    exec .init s = .next (if s.config.valid = false then s.raise .cfgErr
      else if s.pinctlOk = false then s.raise .resErr else s.begin) := by
  rw [exec_eq_guarded, guarded_accept h (allowed := allowedState .init) ha]
  rfl

/-- What a command can do: raise one error and nothing else, begin INIT, or be accepted with its own effect. -/
theorem exec_cases (i : Instr) (s : State) :
    (∃ e, exec i s = .next (s.raise e)) ∨
    (i = .init ∧ s.busy = false ∧ s.initState = .unconfigured ∧ s.config.valid = true ∧ s.pinctlOk = true ∧
      exec i s = .next s.begin) ∨
    (i ≠ .init ∧ s.busy = false ∧ s.initState = .ready ∧ exec i s = .next (acceptedState s i)) := by
  rcases hb : s.busy with _ | _
  · by_cases ha : s.initState = allowedState i
    · by_cases hi : i = .init
      · subst hi
        rw [exec_init hb ha]
        rcases hv : s.config.valid with _ | _
        · exact .inl ⟨.cfgErr, rfl⟩
        · rcases hp : s.pinctlOk with _ | _
          · exact .inl ⟨.resErr, rfl⟩
          · exact .inr (.inl ⟨rfl, rfl, ha, rfl, rfl, rfl⟩)
      · have hr : s.initState = .ready := by rw [ha]; cases i <;> first | rfl | exact absurd rfl hi
        exact .inr (.inr ⟨hi, rfl, hr, exec_accept hb hr hi⟩)
    · exact .inl ⟨.stErr, exec_wrongState hb ha⟩
  · exact .inl ⟨.ovr, exec_busy hb i⟩

/-! ### The CMD register and the other registers -/

theorem handleCmd_busy {s : State} (h : s.busy = true) (v : Word) : s.handleCmd v = .next (s.raise .ovr) := by
  simp [State.handleCmd, h]

theorem handleCmd_illegal {s : State} (h : s.busy = false) {v : Word} {e : Illegal} (hv : decode v = .error e) :
    s.handleCmd v = .next (s.raise .cmdErr) := by
  simp [State.handleCmd, h, hv]

/-- A legal word is its command, BUSY or not. -/
theorem handleCmd_legal (s : State) {v : Word} {i : Instr} (hv : decode v = .ok i) : s.handleCmd v = exec i s := by
  rcases hb : s.busy with _ | _
  · simp [State.handleCmd, hb, hv]
  · rw [handleCmd_busy hb, exec_busy hb]

/-- What a CMD write can do. -/
theorem handleCmd_cases (v : Word) (s : State) :
    (∃ e, s.handleCmd v = .next (s.raise e)) ∨
    (s.busy = false ∧ s.initState = .unconfigured ∧ s.config.valid = true ∧ s.pinctlOk = true ∧
      decode v = .ok .init ∧ s.handleCmd v = .next s.begin) ∨
    (∃ i, i ≠ .init ∧ decode v = .ok i ∧ s.busy = false ∧ s.initState = .ready ∧
      s.handleCmd v = .next (acceptedState s i)) := by
  rcases hb : s.busy with _ | _
  · rcases hv : decode v with e | i
    · exact .inl ⟨.cmdErr, handleCmd_illegal hb hv⟩
    · rw [handleCmd_legal s hv]
      rcases exec_cases i s with h | ⟨rfl, -, h1, h2, h3, h4⟩ | ⟨h1, -, h2, h3⟩
      · exact .inl h
      · exact .inr (.inl ⟨rfl, h1, h2, h3, rfl, h4⟩)
      · exact .inr (.inr ⟨i, h1, rfl, rfl, h2, h3⟩)
  · exact .inl ⟨.ovr, handleCmd_busy hb v⟩

/-! ### The host's script -/

theorem load_host (acts : List Action) (s : State) (l : List HostAction) :
    ({ s with host := l } : State).load acts = { s.load acts with host := l } := by
  cases acts <;> rfl

theorem startMoves_host (n : Nat) (s : State) (l : List HostAction) :
    ({ s with host := l } : State).startMoves n = { s.startMoves n with host := l } := by
  cases n
  · rfl
  · exact load_host _ { s with repeatLeft := _ } l

theorem write_host (p : Byte) (sel : Bool) (more : List Action) (s : State) (l : List HostAction) :
    ({ s with host := l } : State).write p sel more = { s.write p sel more with host := l } :=
  load_host _ s l

theorem toggle_host (k : Nat) (on : Bool) (s : State) (l : List HostAction) :
    ({ s with host := l } : State).toggle k on = { s.toggle k on with host := l } :=
  write_host _ _ _ { s with masks := _ } l

theorem begin_host (s : State) (l : List HostAction) :
    ({ s with host := l } : State).begin = { s.begin with host := l } := rfl

theorem acceptedState_host (i : Instr) (s : State) (l : List HostAction) :
    acceptedState { s with host := l } i = { acceptedState s i with host := l } := by
  cases i with
  | init => rfl
  | clear => exact write_host _ _ _ s l
  | home => exact write_host _ _ _ s l
  | cursorBlink on => exact toggle_host _ _ s l
  | cursorVisible on => exact toggle_host _ _ s l
  | displayOn on => exact toggle_host _ _ s l
  | moveLeft n => exact startMoves_host n s l
  | setCursor row col =>
    show (if s.acfg.inRange row col then _ else _) = _
    rcases h : s.acfg.inRange row col with _ | _
    · simp [acceptedState, h]
    · simpa [acceptedState, h] using write_host _ _ _ s l
  | printChar g => exact write_host _ _ _ s l
  | backlight on => rfl
  | close => rfl

/-- A command looks at the host's script only for PINCTL_OK, and does not change it. -/
theorem exec_host (i : Instr) (s : State) (l : List HostAction)
    (h : ({ s with host := l } : State).pinctlOk = s.pinctlOk) :
    exec i { s with host := l } = onNext (exec i s) fun t => { t with host := l } := by
  rcases hb : s.busy with _ | _
  · by_cases ha : s.initState = allowedState i
    · by_cases hi : i = .init
      · subst hi
        rw [exec_init hb ha, exec_init (s := { s with host := l }) hb ha, h, onNext_next]
        rcases hv : s.config.valid <;> rcases hp : s.pinctlOk <;> simp [begin_host, State.raise]
      · have hr : s.initState = .ready := by rw [ha]; cases i <;> first | rfl | exact absurd rfl hi
        rw [exec_accept hb hr hi, exec_accept (s := { s with host := l }) hb hr hi, acceptedState_host, onNext_next]
    · rw [exec_wrongState hb ha, exec_wrongState (s := { s with host := l }) hb ha]
      rfl
  · rw [exec_busy hb, exec_busy (s := { s with host := l }) hb]
    rfl

theorem handleCmd_host (v : Word) (s : State) (l : List HostAction)
    (h : ({ s with host := l } : State).pinctlOk = s.pinctlOk) :
    ({ s with host := l } : State).handleCmd v = onNext (s.handleCmd v) fun t => { t with host := l } := by
  rcases hv : decode v with e | i
  · rcases hb : s.busy with _ | _
    · rw [handleCmd_illegal hb hv, handleCmd_illegal (s := { s with host := l }) hb hv]
      rfl
    · rw [handleCmd_busy hb, handleCmd_busy (s := { s with host := l }) hb]
      rfl
  · rw [handleCmd_legal _ hv, handleCmd_legal _ hv, exec_host i s l h]

/-- A host write looks at the host's script only for PINCTL_OK, and does not change it. -/
theorem hostWrite_host (r : HostReg) (v : Word) (s : State) (l : List HostAction)
    (h : ({ s with host := l } : State).pinctlOk = s.pinctlOk) :
    ({ s with host := l } : State).hostWrite r v = onNext (s.hostWrite r v) fun t => { t with host := l } := by
  cases r
  case cmd => exact handleCmd_host v s l h
  all_goals rfl

/-- What a host access can do: a CMD write, a STATUS write, a CONFIG write, or nothing. -/
theorem access_cases (s : State) :
    (s.pins.hwe = true ∧ HostReg.ofIndex s.pins.haddr = .cmd ∧ s.access = s.handleCmd s.pins.hwdata) ∨
    (s.pins.hwe = true ∧ HostReg.ofIndex s.pins.haddr = .status ∧
      s.access = .next { s with errors := s.errors.w1c s.pins.hwdata }) ∨
    (s.pins.hwe = true ∧ HostReg.ofIndex s.pins.haddr = .config ∧
      s.access = .next { s with config := configFields s.pins.hwdata }) ∨
    (s.access = .next s) := by
  unfold State.access
  rcases hw : s.pins.hwe with _ | _
  · simp
  · rcases hr : HostReg.ofIndex s.pins.haddr <;> simp [State.hostWrite]

/-- A host access answers a next state. -/
theorem access_next (s : State) : ∃ t, s.access = .next t := by
  rcases access_cases s with ⟨-, -, h⟩ | ⟨-, -, h⟩ | ⟨-, -, h⟩ | h
  · rw [h]
    rcases handleCmd_cases s.pins.hwdata s with ⟨e, h⟩ | ⟨-, -, -, -, -, h⟩ | ⟨i, -, -, -, -, h⟩ <;> exact ⟨_, h⟩
  all_goals exact ⟨_, h⟩

/-! ### A step -/

/-- A cycle with RST_N = 0. -/
theorem step_reset {s : State} (h : s.pins.rstN = false) : step s = .next (s.endCycle none s.resetBlock) := by
  simp [step, State.cycle, h]

/-- A cycle out of reset, given what the access does. -/
theorem step_run {s t : State} (h : s.pins.rstN = true) (ha : s.access = .next t) :
    step s = .next (s.endCycle s.readData (if s.busy then t.seqCycle else t)) := by
  simp [step, State.cycle, h, ha]

/-- What a step can do: reset, or an access and, where BUSY = 1 at its start, a cycle of the sequencer. -/
theorem step_cases {s t : State} (h : step s = .next t) :
    (s.pins.rstN = false ∧ t = s.endCycle none s.resetBlock) ∨
    (s.pins.rstN = true ∧ ∃ u, s.access = .next u ∧ t = s.endCycle s.readData (if s.busy then u.seqCycle else u)) := by
  rcases hr : s.pins.rstN with _ | _
  · rw [step_reset hr] at h
    exact .inl ⟨rfl, by simpa using h.symm⟩
  · obtain ⟨u, hu⟩ := access_next s
    rw [step_run hr hu] at h
    exact .inr ⟨rfl, u, hu, by simpa using h.symm⟩

/-- The error bits after an access made while BUSY = 1: a CMD write sets OVR, a STATUS write clears. -/
def accessErrors (p : HostPins) (e : Errors) : Errors :=
  if p.hwe then
    if p.haddr = 0 then e.set .ovr else if p.haddr = 1 then e.w1c p.hwdata else e
  else e

/-- CONFIG after an access. -/
def accessConfig (p : HostPins) (c : CfgFields) : CfgFields :=
  if p.hwe then if p.haddr = 2 then configFields p.hwdata else c else c

/-- Which register an index below 3 is. -/
theorem ofIndex_iff (i : BitVec 3) :
    (HostReg.ofIndex i = .cmd ↔ i = 0) ∧ (HostReg.ofIndex i = .status ↔ i = 1) ∧ (HostReg.ofIndex i = .config ↔ i = 2) := by
  revert i
  decide

/-- While BUSY = 1 an access changes the error bits and CONFIG only. -/
theorem access_busy {s : State} (hb : s.busy = true) :
    s.access
      = .next { s with errors := accessErrors s.pins s.errors, config := accessConfig s.pins s.config } := by
  unfold State.access accessErrors accessConfig
  have hi := ofIndex_iff s.pins.haddr
  rcases hw : s.pins.hwe with _ | _
  · simp
  · rcases hr : HostReg.ofIndex s.pins.haddr <;>
      simp_all [State.hostWrite, handleCmd_busy, State.raise]

/-- A cycle out of reset that begins with BUSY = 1: the sequencer's cycle, and beside it the access's error bits and CONFIG. -/
theorem step_busy {s : State} (hr : s.pins.rstN = true) (hb : s.busy = true) :
    step s = .next (s.endCycle s.readData
      { s.seqCycle with errors := accessErrors s.pins s.errors, config := accessConfig s.pins s.config }) := by
  rw [step_run hr (access_busy hb)]
  have h := seqCycle_environment s (accessErrors s.pins s.errors) (accessConfig s.pins s.config) s.hrdata s.host s.draws
  simp only [hb, if_true]
  congr 2
  simpa using h

/-- One cycle of a run. -/
theorem after_succ {s t : State} (h : step s = .next t) (k : Nat) : s.after (k + 1) = t.after k := by
  simp [State.after, h]

/-- The script after a cycle is what is left of it, so it stays out of reset. -/
theorem hostAfter_subset (s : State) : ∀ a ∈ s.hostAfter, a ∈ s.host := by
  intro a ha
  unfold State.hostAfter at ha
  split at ha <;> rename_i h
  · simp at ha
  · simp_all
  · split at ha <;> simp_all

end Sys2Proof.Machine
end

