-- ==== Sys2Proof/Laws/Decode.lean ====
section
/-! SUPPORT. The fields of a command word built from its fields, by the numbers they stand for. -/

namespace Sys2Proof

/-- Appending is positional notation. -/
theorem append_toNat {m n : Nat} (x : BitVec m) (y : BitVec n) : (x ++ y).toNat = x.toNat * 2 ^ n + y.toNat := by
  rw [BitVec.toNat_append, ← Nat.shiftLeft_add_eq_or_of_lt y.isLt, Nat.shiftLeft_eq]

theorem byte_zero_toNat : (0 : Byte).toNat = 0 := rfl

theorem commandWord_toNat (opc a b : Byte) :
    (commandWord opc a b).toNat = opc.toNat * 2 ^ 24 + a.toNat * 2 ^ 8 + b.toNat := by
  simp only [commandWord, append_toNat, byte_zero_toNat]
  omega

theorem opcField_toNat (w : Word) : (opcField w).toNat = w.toNat / 2 ^ 24 % 256 := by
  simp [opcField, BitVec.extractLsb'_toNat, Nat.shiftRight_eq_div_pow]

theorem rsvField_toNat (w : Word) : (rsvField w).toNat = w.toNat / 2 ^ 16 % 256 := by
  simp [rsvField, BitVec.extractLsb'_toNat, Nat.shiftRight_eq_div_pow]

theorem aField_toNat (w : Word) : (aField w).toNat = w.toNat / 2 ^ 8 % 256 := by
  simp [aField, BitVec.extractLsb'_toNat, Nat.shiftRight_eq_div_pow]

theorem bField_toNat (w : Word) : (bField w).toNat = w.toNat % 256 := by
  simp [bField, BitVec.extractLsb'_toNat]

@[simp] theorem opcField_commandWord (opc a b : Byte) : opcField (commandWord opc a b) = opc := by
  apply BitVec.eq_of_toNat_eq
  rw [opcField_toNat, commandWord_toNat]
  omega

@[simp] theorem rsvField_commandWord (opc a b : Byte) : rsvField (commandWord opc a b) = 0 := by
  apply BitVec.eq_of_toNat_eq
  rw [rsvField_toNat, commandWord_toNat, byte_zero_toNat]
  omega

@[simp] theorem aField_commandWord (opc a b : Byte) : aField (commandWord opc a b) = a := by
  apply BitVec.eq_of_toNat_eq
  rw [aField_toNat, commandWord_toNat]
  omega

@[simp] theorem bField_commandWord (opc a b : Byte) : bField (commandWord opc a b) = b := by
  apply BitVec.eq_of_toNat_eq
  rw [bField_toNat, commandWord_toNat]
  omega

/-- A word with RSV = 0 is its other three fields. -/
theorem commandWord_fields {w : Word} (h : rsvField w = 0) : commandWord (opcField w) (aField w) (bField w) = w := by
  have hr := congrArg BitVec.toNat h
  rw [rsvField_toNat, byte_zero_toNat] at hr
  apply BitVec.eq_of_toNat_eq
  rw [commandWord_toNat, opcField_toNat, aField_toNat, bField_toNat]
  omega

end Sys2Proof
end

