-- ==== Sys2Proof/Laws/PerInstr.lean ====
section
/-! SUPPORT. The per-instruction family OpcodeField: the word of every command holds its opcode in OPC and 0 in RSV
(30_encoding.md R58, R60). -/

namespace Sys2Proof.Laws.OpcodeField

/-- OPC is the command's opcode number and RSV is 0. -/
def Statement (i : Instr) : Prop := opcField (encode i) = opcodeOf i ∧ rsvField (encode i) = 0

theorem init : Statement .init := by constructor <;> rfl
theorem clear : Statement .clear := by constructor <;> rfl
theorem home : Statement .home := by constructor <;> rfl
theorem cursorBlink (on : Bool) : Statement (.cursorBlink on) := by
  constructor <;> simp [encode, opcodeOf]
theorem cursorVisible (on : Bool) : Statement (.cursorVisible on) := by
  constructor <;> simp [encode, opcodeOf]
theorem displayOn (on : Bool) : Statement (.displayOn on) := by
  constructor <;> simp [encode, opcodeOf]
theorem moveLeft (n : Nat) : Statement (.moveLeft n) := by
  constructor <;> simp [encode, opcodeOf]
theorem setCursor (row col : Nat) : Statement (.setCursor row col) := by
  constructor <;> simp [encode, opcodeOf]
theorem printChar (g : Byte) : Statement (.printChar g) := by
  constructor <;> simp [encode, opcodeOf]
theorem backlight (on : Bool) : Statement (.backlight on) := by
  constructor <;> simp [encode, opcodeOf]
theorem close : Statement .close := by constructor <;> rfl

end Sys2Proof.Laws.OpcodeField
end

