-- ==== Sys2Proof/Tests/Slice0.lean ====
section
/-! SUPPORT. The model's own tests. The expected values are those of 30_encoding.md R61, R73 and of 95_test_vectors.md, named by
their vector. After them, for every statement with hypotheses, states and operands that meet the hypotheses together. -/

namespace Sys2Proof.Tests

open Sys2Proof.Machine

/-! ### Small states -/

/-- 2 rows, 16 columns, 5x8 dots, in 8-bit or in 4-bit width (V1). -/
def cfg2x16 (width : Bool) : CfgFields :=
  { rows := 2, font := false, width := width, cols := 16, dlcnt := if width then 8 else 4 }

/-- READY and idle after an INIT with that configuration (V2). -/
def ready (width : Bool) (host : List HostAction) : State :=
  { State.reset with
    initState := .ready
    config := cfg2x16 width
    acfg := cfg2x16 width
    masks := { em := 0x06, dc := 0x0C, ds := 0x10, fs := if width then 0x38 else 0x28 }
    pads := { rs := false, e := false, bl := false, dl := 0x01, oe := true }
    host := host }

/-- READY in 8-bit width with a command in progress. -/
def running (a : Action) (later : List Action) (count : Nat) (e : Bool) (host : List HostAction) : State :=
  { ready true host with
    current := some a
    queue := later
    waitCount := count
    pads := { rs := false, e := e, bl := false, dl := 0x01, oe := true } }

/-- UNCONFIGURED with this in CONFIG. -/
def unconfigured (c : CfgFields) (host : List HostAction) : State := { State.reset with config := c, host := host }

/-- INITIALIZING, at the SetOE(1) of INIT. -/
def initializing (later : List Action) (host : List HostAction) : State :=
  { ready true host with
    initState := .initializing
    pads := .reset
    current := some (.setOE true)
    queue := later }

/-- A host that drives a write of v to r, PINCTL_OK being 1. -/
def writing (r : HostReg) (v : Word) : List HostAction := [.drive (.write r v true)]

/-- A field of the next state, none where there is no next state. -/
def field {α : Type} (o : Result) (f : State → α) : Option α :=
  match o with
  | .next t => some (f t)
  | .fault _ => none
  | .refused _ => none

/-! ### WellFormed -/

theorem test_wf_refuses_count_256 : (Instr.moveLeft 256).WellFormed = false := by decide
theorem test_wf_refuses_row_256 : (Instr.setCursor 256 0).WellFormed = false := by decide
theorem test_wf_refuses_col_256 : (Instr.setCursor 0 256).WellFormed = false := by decide
theorem test_ill_formed_is_no_assembly : asmCommand true (.setCursor 0 256) = none := by decide

/-! ### Decode: a word of every command, from the table of 30_encoding.md R73 -/

theorem test_decode_init : decode 0x01000000 = .ok .init := by decide
theorem test_decode_clear : decode 0x02000000 = .ok .clear := by decide
theorem test_decode_home : decode 0x03000000 = .ok .home := by decide
theorem test_decode_cursorBlink : decode 0x04000001 = .ok (.cursorBlink true) := by decide
theorem test_decode_cursorVisible : decode 0x05000000 = .ok (.cursorVisible false) := by decide
theorem test_decode_displayOn : decode 0x06000001 = .ok (.displayOn true) := by decide
theorem test_decode_moveLeft : decode 0x070000FF = .ok (.moveLeft 255) := by decide
theorem test_decode_setCursor : decode 0x08000103 = .ok (.setCursor 1 3) := by decide
theorem test_decode_printChar : decode 0x09000048 = .ok (.printChar 0x48) := by decide
theorem test_decode_backlight : decode 0x0A000001 = .ok (.backlight true) := by decide
theorem test_decode_close : decode 0x0B000000 = .ok .close := by decide

/-- The illegal words of V7. -/
theorem test_decode_illegal :
    ([0x00000000, 0x0C000000, 0xFF000000, 0x02000001, 0x04000002, 0x07010000, 0x08010000, 0x09000141] : List Word).map Legal
      = List.replicate 8 false := by decide

/-- A legal word beside them (V7). -/
theorem test_decode_legal_row : decode 0x08000100 = .ok (.setCursor 1 0) := by decide

theorem test_decodeTableWord : decodeTableWord 32 0x0A000001 = some (.backlight true) := by decide

/-! ### One step of each command -/

/-- V10: INIT's sequence in 4-bit width. -/
theorem test_init_sequence :
    (field (exec .init (unconfigured (cfg2x16 false) (writing .cmd 0x01000000)))
      fun t => t.pending.filter fun a => decide (a ≠ .wait .short ∧ a ≠ .setE true ∧ a ≠ .setE false))
      = some [.setOE true, .setBus false 0x02, .wait .settle, .setBus false 0x08, .wait .settle, .wait .settle,
        .setBus false 0x00, .wait .settle, .setBus false 0x0C, .wait .settle, .wait .settle,
        .setBus false 0x00, .wait .settle, .setBus false 0x01, .wait .settle, .wait .clear] := by decide

/-- V2: the masks seeded in 8-bit width with 1 row and 5x11 dots. -/
theorem test_init_seeds :
    (field (exec .init (unconfigured { rows := 1, font := true, width := true, cols := 20, dlcnt := 8 }
      (writing .cmd 0x01000000))) fun t => (t.masks, t.initState))
      = some ({ em := 0x06, dc := 0x0C, ds := 0x10, fs := 0x34 }, .initializing) := by decide

/-- V6. -/
theorem test_clear :
    (field (exec .clear (ready true [])) State.pending)
      = some [.setBus false 0x01, .wait .short, .setE true, .wait .short, .setE false, .wait .settle, .wait .clear] := by
  decide

/-- The example of 41_protocol_ops.md R89. -/
theorem test_home :
    (field (exec .home (ready false [])) State.pending)
      = some [.setBus false 0x00, .wait .short, .setE true, .wait .short, .setE false, .wait .settle,
        .setBus false 0x02, .wait .short, .setE true, .wait .short, .setE false, .wait .settle] := by decide

/-- V4, first row. -/
theorem test_cursorBlink :
    (field (exec (.cursorBlink true) (ready true [])) fun t => (t.masks.dc, t.current))
      = some (0x0D, some (.setBus false 0x0D)) := by decide

/-- V4, third row: from 0x0D. -/
theorem test_cursorVisible :
    (field (exec (.cursorVisible true) { ready true [] with masks := { em := 0x06, dc := 0x0D, ds := 0x10, fs := 0x38 } })
      fun t => (t.masks.dc, t.current)) = some (0x0F, some (.setBus false 0x0F)) := by decide

/-- V4, fourth row: from 0x0F. -/
theorem test_displayOn :
    (field (exec (.displayOn false) { ready true [] with masks := { em := 0x06, dc := 0x0F, ds := 0x10, fs := 0x38 } })
      fun t => (t.masks.dc, t.current)) = some (0x0B, some (.setBus false 0x0B)) := by decide

/-- V6: MOVE_LEFT 0 emits nothing. -/
theorem test_moveLeft_zero : (field (exec (.moveLeft 0) (ready true [])) fun t => (t.busy, t.pending)) = some (false, []) := by
  decide

/-- S6: three writes of 0x10. -/
theorem test_moveLeft_three :
    (field (exec (.moveLeft 3) (ready true []))
      fun t => t.pending.filter fun a => decide (a = .setBus false 0x10)) = some (List.replicate 3 (.setBus false 0x10)) := by
  decide

/-- S4 and V5. -/
theorem test_setCursor :
    (field (exec (.setCursor 1 5) (ready true [])) State.current) = some (some (.setBus false 0xC5)) := by decide

/-- S5. -/
theorem test_setCursor_ignored :
    (field (exec (.setCursor 2 0) (ready true [])) id) = some (ready true []) ∧
      (field (exec (.setCursor 0 16) (ready true [])) id) = some (ready true []) := by decide

/-- V6 with V3: a data write of 0xFF in 4-bit width. -/
theorem test_printChar :
    (field (exec (.printChar 0xFF) (ready false [])) State.pending)
      = some [.setBus true 0x0F, .wait .short, .setE true, .wait .short, .setE false, .wait .settle,
        .setBus true 0x0F, .wait .short, .setE true, .wait .short, .setE false, .wait .settle] := by decide

/-- V6. -/
theorem test_backlight : (field (exec (.backlight true) (ready true [])) State.pending) = some [.setBL true] := by decide

/-- 41_protocol_ops.md R96: BL is 1 after the action's cycle, and BUSY is 0. -/
theorem test_backlight_cycle :
    (field (step (running (.setBL true) [] 0 false [])) fun t => (t.pads.bl, t.busy)) = some (true, false) := by decide

/-- S8 and 42_lifecycle.md R103: PINS and STATUS after CLOSE's action. -/
theorem test_close_cycle :
    (field (step { running .allLow [] 0 false [] with pads := { rs := true, e := false, bl := true, dl := 0x41, oe := true } })
      fun t => (t.hostRead .pins, t.hostRead .status, t.masks)) = some (0x00000008, 0x00000000, .unseeded) := by decide

/-! ### The host bus and the errors -/

/-- V7: CLEAR while UNCONFIGURED, INIT while READY, an unknown opcode while UNCONFIGURED. -/
theorem test_errors :
    (field (step (unconfigured .zero (writing .cmd 0x02000000))) fun t => t.hostRead .status) = some 0x00000800 ∧
    (field (step (ready true (writing .cmd 0x01000000))) fun t => t.hostRead .status) = some 0x00000802 ∧
    (field (step (unconfigured .zero (writing .cmd 0x0C000000))) fun t => t.hostRead .status) = some 0x00000400 := by decide

/-- V7: OVR is checked before CMDERR. -/
theorem test_overrun :
    (field (step (running (.setBus false 0x2A) [.wait .short] 0 false (writing .cmd 0xFF000000)))
      fun t => t.errors) = some { Errors.none with ovr := true } := by decide

/-- V1: CFGERR wins over RESERR; with a valid CONFIG it is RESERR. -/
theorem test_init_errors :
    (field (step (unconfigured (configFields 0x0008101A) [.drive (.write .cmd 0x01000000 false)])) fun t => t.hostRead .status)
      = some 0x00000100 ∧
    (field (step (unconfigured (configFields 0x00081012) [.drive (.write .cmd 0x01000000 false)])) fun t => t.hostRead .status)
      = some 0x00000200 := by decide

/-- V1: which configurations are valid. -/
theorem test_config_valid :
    ([0x00041002, 0x00081012, 0x00081419, 0x00040109, 0x00082812, 0xFFF81012] : List Word).map
        (fun v => (configFields v).valid) = List.replicate 6 true ∧
    ([0x00000000, 0x0008101A, 0x00041012, 0x00081002, 0x00061002, 0x00080012, 0x00082912, 0x00081013] : List Word).map
        (fun v => (configFields v).valid) = List.replicate 8 false := by decide

/-- V1, last row: CONFIG reads back without the reserved bits. -/
theorem test_config_readback :
    (field (step (ready true (writing .config 0xFFF81012))) fun t => t.hostRead .config) = some 0x00081012 := by decide

/-- V8. -/
theorem test_status_w1c :
    (field (step { ready true (writing .status 0x00000100) with errors := { Errors.none with cfgErr := true, cmdErr := true } })
      fun t => t.hostRead .status) = some 0x00000402 := by decide

/-- S1 and S2: the byte 0xA5. -/
theorem test_serializer :
    busWrite true 0xA5 true = .setBus true 0xA5 :: pulse ∧
    busWrite false 0xA5 true = .setBus true 0x0A :: pulse ++ .setBus true 0x05 :: pulse := by decide

/-- 30_encoding.md R75: the word of `SETCFG 2, 16, 5x8, 4, 4` (L3-P1), and MOVE_LEFT 600. -/
theorem test_pseudo : setCfgWord 2 16 false false 4 = 0x00041002 ∧ moveLeftCounts 600 = [255, 255, 90] := by decide

/-- 10_state.md R33: all pads high-impedance after reset; DL = 0x01 with OE = 1 drives DL[0] high and DL[7] low. -/
theorem test_pad_levels :
    State.reset.pads.level .e = .highZ ∧ State.reset.pads.level (.dl 0) = .highZ ∧
      (ready true []).pads.level (.dl 0) = .driven true ∧ (ready true []).pads.level (.dl 7) = .driven false := by decide

/-! ### Witnesses: the invariant of the small states -/

theorem seeded_2x16 : ∀ width : Bool, (cfg2x16 width).valid = true ∧ (0x06 : Byte) = 0x06 ∧ (0x0C : Byte) &&& 0xF8 = 0x08 ∧
    (0x10 : Byte) = 0x10 ∧ (if width then 0x38 else 0x28) = fsSeed (cfg2x16 width) := by decide

theorem ready_inv (width : Bool) (host : List HostAction) : (ready width host).Inv where
  unconfigured h := by cases h
  seeded _ := seeded_2x16 width
  initializing h := by cases h
  idle _ := ⟨rfl, rfl, rfl⟩
  waits _ h := by cases h
  repeats h := absurd rfl h
  allLow h := by simp [ready, State.pending, State.reset] at h
  setOE _ := ⟨by simp [ready, State.reset], by simp [ready, State.reset]⟩
  driven _ := .inl rfl
  pulses := ⟨.rest, by rfl, rfl⟩
  nibbles _ _ := ⟨by show (0x01 : Byte) &&& 0xF0 = 0; decide, by simp [ready, State.pending, State.reset]⟩

theorem running_inv (a : Action) (later : List Action) (count : Nat) (e : Bool) (host : List HostAction)
    (waits : (∀ t, a = .wait t → 1 ≤ count ∧ count ≤ t.cycles) ∧ ((∀ t, a ≠ .wait t) → count = 0))
    (allLow : Action.allLow ∈ a :: later → a :: later = [.allLow]) (setOE : ∀ v, Action.setOE v ∉ a :: later)
    (pulses : ∃ p : PulsePhase, p.runs (a :: later) = true ∧ e = p.eHigh) : (running a later count e host).Inv where
  unconfigured h := by cases h
  seeded _ := seeded_2x16 true
  initializing h := by cases h
  idle h := by cases h
  waits b h := by cases h; exact waits
  repeats h := absurd rfl h
  allLow h := by
    have hp : (running a later count e host).pending = a :: later := by simp [running, ready, State.pending, State.reset]
    rw [hp] at h ⊢
    exact ⟨rfl, allLow h⟩
  setOE v := by
    have h := setOE v
    simp only [List.mem_cons, not_or] at h
    exact ⟨h.2, fun hc => absurd (Option.some.inj hc).symm h.1⟩
  driven _ := .inl rfl
  pulses := by simpa [running, ready, State.pending, State.reset] using pulses
  nibbles _ h := by cases h

theorem unconfigured_inv (c : CfgFields) (host : List HostAction) : (unconfigured c host).Inv where
  unconfigured _ := ⟨rfl, rfl, rfl, rfl, rfl, rfl, rfl⟩
  seeded h := absurd rfl h
  initializing h := by cases h
  idle _ := ⟨rfl, rfl, rfl⟩
  waits _ h := by cases h
  repeats h := absurd rfl h
  allLow h := by simp [unconfigured, State.pending, State.reset] at h
  setOE _ := ⟨by simp [unconfigured, State.reset], by simp [unconfigured, State.reset]⟩
  driven h := absurd rfl h
  pulses := ⟨.rest, by rfl, rfl⟩
  nibbles h := absurd rfl h

theorem initializing_inv (later : List Action) (host : List HostAction) (allLow : Action.allLow ∉ later)
    (setOE : ∀ v, Action.setOE v ∉ later) (pulses : PulsePhase.rest.runs later = true) : (initializing later host).Inv where
  unconfigured h := by cases h
  seeded _ := seeded_2x16 true
  initializing _ := rfl
  idle h := by cases h
  waits a h := by
    cases h
    refine ⟨fun t ht => ?_, fun _ => rfl⟩
    cases ht
  repeats h := absurd rfl h
  allLow h := by simp [initializing, ready, State.pending, State.reset, allLow] at h
  setOE v := ⟨setOE v, fun hc => by
    have h : Action.setOE true = Action.setOE v := Option.some.inj hc
    injection h with h
    exact ⟨h.symm, rfl, rfl, rfl, rfl, rfl⟩⟩
  driven _ := .inr rfl
  pulses := ⟨.rest, by
    have hp : (initializing later host).pending = .setOE true :: later := by
      simp [initializing, ready, State.pending, State.reset]
    rw [hp]
    exact pulses, rfl⟩
  nibbles _ h := by cases h

/-- A setup wait at its start, with the rest of its pulse (V3). -/
def setupWait (host : List HostAction) : State :=
  running (.wait .short) [.setE true, .wait .short, .setE false, .wait .settle] Config.wShort false host

theorem setupWait_inv (host : List HostAction) : (setupWait host).Inv :=
  running_inv _ _ _ _ _
    ⟨fun t h => by cases h; exact ⟨Config.delays_ordered.1, Nat.le_refl _⟩, fun h => absurd rfl (h .short)⟩
    (by decide) (by simp) ⟨.setup, by decide, rfl⟩

/-- A state whose action takes one cycle. -/
theorem single_inv (a : Action) (later : List Action) (e : Bool) (host : List HostAction) (wait : ∀ t, a ≠ .wait t)
    (allLow : Action.allLow ∈ a :: later → a :: later = [.allLow]) (setOE : ∀ v, Action.setOE v ∉ a :: later)
    (pulses : ∃ p : PulsePhase, p.runs (a :: later) = true ∧ e = p.eHigh) : (running a later 0 e host).Inv :=
  running_inv a later 0 e host ⟨fun t h => absurd h (wait t), fun _ => rfl⟩ allLow setOE pulses

/-! ### Witnesses: the encoding -/

theorem witness_DecodeOfEncode :
    (Instr.moveLeft 255).WellFormed = true ∧ (Instr.setCursor 255 255).WellFormed = true ∧ Instr.close.WellFormed = true := by
  decide

theorem witness_EncodeOfDecode : decode 0x0800FFFF = .ok (.setCursor 255 255) := by decide

theorem witness_IllegalWordsRaiseCmdErr :
    (ready true []).busy = false ∧ Legal 0x00FFFFFF = false ∧ Legal 0x0C000000 = false ∧ Legal 0x08010000 = false ∧
      Legal 0x09000100 = false ∧ Legal 0x0A000080 = false ∧ Legal 0x0B000001 = false := by decide

/-! ### Witnesses: the host bus -/

theorem witness_ReadsHaveNoSideEffect :
    (∃ t, step (ready true [.drive (.read .pins true)]) = .next t) ∧ (HostPins.read .pins true).rstN = true ∧
      (HostPins.read .pins true).hre = true ∧ (HostPins.read .pins true).hwe = false ∧
      (ready true [.drive (.read .pins true)]).pins.rstN = true ∧ (ready true [.drive (.read .pins true)]).pins.hwe = false ∧
      (ready true [.drive (.read .pins true)]).busy = false := ⟨⟨_, rfl⟩, by decide⟩

/-- Reset, a write to index 2 and a write elsewhere. -/
theorem witness_ConfigWriteKeepsFieldBits :
    ((∃ t, step (ready true [.drive .resetting]) = .next t) ∧ (ready true [.drive .resetting]).pins.rstN = false) ∧
      (let s := setupWait (writing .config 0xFFF81012);
        (∃ t, step s = .next t) ∧ s.pins.rstN = true ∧ s.pins.hwe = true ∧ s.pins.haddr = 2) ∧
      (let s := setupWait (writing .status 0xFFFFFFFF);
        (∃ t, step s = .next t) ∧ s.pins.rstN = true ∧ s.pins.haddr ≠ 2) :=
  ⟨⟨⟨_, step_reset rfl⟩, rfl⟩, ⟨⟨_, step_busy rfl rfl⟩, rfl, rfl, rfl⟩, ⟨⟨_, step_busy rfl rfl⟩, rfl, by decide⟩⟩

/-- The indexes 3 and 7, the ends of the range. -/
theorem witness_ReadOnlyWritesHaveNoEffect :
    (∃ t, step (ready true (writing .maskEm 0xFF)) = .next t) ∧ (∃ t, step (ready true (writing .pins 0xFF)) = .next t) ∧
      (∀ r ∈ [HostReg.maskEm, HostReg.pins], (HostPins.write r 0xFF true).rstN = true ∧ (HostPins.write r 0xFF true).hwe = true ∧
        (HostPins.write r 0xFF true).hre = false ∧ 3 ≤ (HostPins.write r 0xFF true).haddr.toNat) :=
  ⟨⟨_, rfl⟩, ⟨_, rfl⟩, by decide⟩

theorem witness_BothStrobesPerformTheWrite :
    let p : HostPins := { rstN := true, hwe := true, hre := true, haddr := 2, hwdata := 0x00081012, pinctlOk := true }
    p.rstN = true ∧ p.hwe = true ∧ p.hre = true := by decide

/-! ### Witnesses: the errors -/

theorem witness_BusyWriteSetsOvrOnly :
    (setupWait (writing .cmd 0x09000041)).busy = true ∧ (HostPins.write .cmd 0x09000041 true).rstN = true ∧
      (HostPins.write .cmd 0x09000041 true).hwe = true ∧ (HostPins.write .cmd 0x09000041 true).haddr = 0 ∧
      ∃ t, step (setupWait (writing .cmd 0x09000041)) = .next t :=
  ⟨rfl, rfl, rfl, rfl, _, step_busy rfl rfl⟩

theorem witness_WrongStateSetsStErrOnly :
    ((unconfigured .zero []).busy = false ∧ (unconfigured .zero []).initState = .unconfigured ∧ Instr.close ≠ .init) ∧
      ((ready true []).busy = false ∧ (ready true []).initState = .ready ∧ Instr.clear ≠ .init) ∧
      ((initializing [] []).Inv ∧ (initializing [] []).initState = .initializing) :=
  ⟨by decide, by decide, initializing_inv [] [] (by simp) (by simp) rfl, rfl⟩

/-- One invalid configuration for each way of being invalid, at the ends of the ranges. -/
theorem witness_InvalidConfigSetsCfgErrOnly :
    ∀ c ∈ ([0x00081010, 0x00081013, 0x00080012, 0x00082912, 0x0008101A, 0x00041012, 0x00081002] : List Word).map configFields,
      (unconfigured c []).busy = false ∧ (unconfigured c []).initState = .unconfigured ∧
      ((c.rows.toNat ≠ 1 ∧ c.rows.toNat ≠ 2) ∨ (c.cols.toNat < 1 ∨ 40 < c.cols.toNat) ∨
        (c.font = true ∧ c.rows.toNat = 2) ∨ (c.width = true ∧ c.dlcnt.toNat ≠ 8) ∨ (c.width = false ∧ c.dlcnt.toNat ≠ 4)) := by
  decide

theorem witness_NoPinControllerSetsResErrOnly :
    let s := unconfigured (cfg2x16 true) [.drive (.write .cmd 0x01000000 false)]
    s.busy = false ∧ s.initState = .unconfigured ∧ s.config.valid = true ∧ s.pinctlOk = false := by decide

/-- A state for each clause. -/
theorem witness_ErrorPriority :
    (setupWait []).busy = true ∧ ((ready true []).busy = false ∧ Legal 0x0C000000 = false) ∧
      (decode 0x01000000 = .ok .init ∧ (ready true []).initState ≠ .unconfigured) ∧
      ((unconfigured .zero []).busy = false ∧ (unconfigured .zero []).initState = .unconfigured ∧ CfgFields.zero.valid = false) ∧
      (let s := unconfigured (cfg2x16 true) [.drive (.write .cmd 0x01000000 false)];
        s.busy = false ∧ s.initState = .unconfigured ∧ s.config.valid = true ∧ s.pinctlOk = false) ∧
      (let s := unconfigured (cfg2x16 true) (writing .cmd 0x01000000);
        s.busy = false ∧ s.initState = .unconfigured ∧ s.config.valid = true ∧ s.pinctlOk = true) ∧
      ((ready true []).initState = .ready ∧ decode 0x02000000 = .ok .clear) :=
  ⟨rfl, by decide, by decide, by decide, by decide, by decide, by decide⟩

theorem witness_ErrorsArePrecise :
    (∃ t, (ready true []).handleCmd 0x0C000000 = .next t) ∧ (∃ t, (ready true []).handleCmd 0x02000000 = .next t) :=
  ⟨⟨_, rfl⟩, ⟨_, rfl⟩⟩

/-- A bit cleared by a STATUS write (V8), and one cleared by reset. -/
theorem witness_ErrorBitsAreSticky :
    (∃ t, step { ready true (writing .status 0x00001000) with errors := { Errors.none with ovr := true } } = .next t ∧
      t.errors.get .ovr = false) ∧
    (∃ t, step { ready true [.drive .resetting] with errors := { Errors.none with ovr := true } } = .next t ∧
      t.errors.get .ovr = false) ∧ ({ Errors.none with ovr := true } : Errors).get .ovr = true :=
  ⟨⟨_, rfl, by decide⟩, ⟨_, rfl, by decide⟩, by decide⟩

theorem witness_OnlyCmdWritesSetErrors :
    ∃ t, step (ready true (writing .cmd 0x0C000000)) = .next t ∧ (ready true []).errors.get .cmdErr = false ∧
      t.errors.get .cmdErr = true := ⟨_, rfl, by decide, by decide⟩

/-! ### Witnesses: the commands -/

/-- The state in which every runtime command and CLOSE is accepted; the words of each opcode that the clauses on rejection are about,
a legal and an illegal one; and states that reject. -/
theorem witness_RuntimeCommands :
    ((ready true []).busy = false ∧ (ready true []).initState = .ready) ∧
      (([0x02000000, 0x02000001] : List Word).map (fun v => v.extractLsb' 24 8) = List.replicate 2 0x02#8) ∧
      (([0x03000000, 0x03000001] : List Word).map (fun v => v.extractLsb' 24 8) = List.replicate 2 0x03#8) ∧
      (([0x04000001, 0x04000002] : List Word).map (fun v => v.extractLsb' 24 8) = List.replicate 2 0x04#8) ∧
      (([0x05000001, 0x05000002] : List Word).map (fun v => v.extractLsb' 24 8) = List.replicate 2 0x05#8) ∧
      (([0x06000001, 0x06000002] : List Word).map (fun v => v.extractLsb' 24 8) = List.replicate 2 0x06#8) ∧
      (([0x070000FF, 0x07000100] : List Word).map (fun v => v.extractLsb' 24 8) = List.replicate 2 0x07#8) ∧
      (([0x0800FFFF, 0x08010000] : List Word).map (fun v => v.extractLsb' 24 8) = List.replicate 2 0x08#8) ∧
      (([0x090000FF, 0x09000100] : List Word).map (fun v => v.extractLsb' 24 8) = List.replicate 2 0x09#8) ∧
      (([0x0A000001, 0x0A000002] : List Word).map (fun v => v.extractLsb' 24 8) = List.replicate 2 0x0A#8) ∧
      (([0x0B000000, 0x0B000001] : List Word).map (fun v => v.extractLsb' 24 8) = List.replicate 2 0x0B#8) ∧
      ((setupWait []).busy = true ∧ (unconfigured .zero []).busy = false ∧ (unconfigured .zero []).initState ≠ .ready) :=
  ⟨by decide, by decide, by decide, by decide, by decide, by decide, by decide, by decide, by decide, by decide, by decide,
    rfl, by decide, by decide⟩

/-- In range at both ends, out of range in each way (V5). -/
theorem witness_SetCursorCommand :
    let c := (ready true []).acfg
    (0 < c.rows.toNat ∧ 0 < c.cols.toNat) ∧ (1 < c.rows.toNat ∧ 15 < c.cols.toNat) ∧ c.rows.toNat ≤ 2 ∧ c.cols.toNat ≤ 16 := by
  decide

/-- After an accepted BACKLIGHT and an accepted CLOSE the next cycle is out of reset. -/
theorem witness_BacklightAndClose :
    (∃ t, exec (.backlight true) (ready true []) = .next t ∧ t.pins.rstN = true) ∧
      (∃ t, exec .close (ready true []) = .next t ∧ t.pins.rstN = true) ∧ (ready true []).Inv :=
  ⟨⟨_, rfl, rfl⟩, ⟨_, rfl, rfl⟩, ready_inv true []⟩

theorem witness_InitCommand :
    (let s := unconfigured (cfg2x16 true) (writing .cmd 0x01000000);
      s.busy = false ∧ s.initState = .unconfigured ∧ s.config.valid = true ∧ s.pinctlOk = true) ∧
      (([0x01000000, 0x01000001] : List Word).map (fun v => v.extractLsb' 24 8) = List.replicate 2 0x01#8) ∧
      (ready true []).busy = false ∧ (ready true []).initState ≠ .unconfigured := by decide

theorem witness_RuntimeCommandsKeepMasks :
    (∃ t, exec (.displayOn false) (ready true []) = .next t) ∧ Instr.displayOn false ≠ .init ∧ Instr.displayOn false ≠ .close :=
  ⟨⟨_, rfl⟩, by decide, by decide⟩

/-- A step that changes the masks in each of the ways: reset, AllLow, INIT, and the three toggles. -/
theorem witness_RuntimeCommandsKeepMasks_step :
    (∃ t, step (ready true [.drive .resetting]) = .next t ∧ t.masks ≠ (ready true []).masks) ∧
      (∃ t, step (running .allLow [] 0 false []) = .next t ∧ t.masks ≠ (ready true []).masks) ∧
      (∃ t, step (unconfigured (cfg2x16 true) (writing .cmd 0x01000000)) = .next t ∧ t.masks ≠ .unseeded) ∧
      (∃ t, step (ready true (writing .cmd 0x04000001)) = .next t ∧ t.masks ≠ (ready true []).masks) ∧
      (∃ t, step (ready true (writing .cmd 0x05000001)) = .next t ∧ t.masks ≠ (ready true []).masks) ∧
      (∃ t, step (ready true (writing .cmd 0x06000000)) = .next t ∧ t.masks ≠ (ready true []).masks) :=
  ⟨⟨_, step_reset rfl, by decide⟩, ⟨_, step_run rfl rfl, by decide⟩, ⟨_, step_run rfl rfl, by decide⟩,
    ⟨_, step_run rfl rfl, by decide⟩, ⟨_, step_run rfl rfl, by decide⟩, ⟨_, step_run rfl rfl, by decide⟩⟩

/-- S7, with the same pair for the other two bits: DISPLAY_ON off and on again. -/
theorem witness_TogglesRoundTrip :
    ∃ t u v : State, exec (.cursorVisible true) (ready true []) = .next t ∧ exec (.cursorVisible (!true)) u = .next v ∧
      (ready true []).busy = false ∧ (ready true []).initState = .ready ∧ u.busy = false ∧ u.initState = .ready ∧
      u.masks = t.masks ∧ (ready true []).masks.dc.getLsbD 1 = (!true) ∧
      (ready true []).masks.dc.getLsbD 0 = (!true) ∧ (ready true []).masks.dc.getLsbD 2 = (!false) :=
  ⟨_, { ready true [] with masks := { em := 0x06, dc := 0x0E, ds := 0x10, fs := 0x38 } }, _, rfl, rfl, by decide, by decide,
    by decide, by decide, by decide, by decide, by decide, by decide⟩

/-- V5: the largest address byte, and the smallest geometry. -/
theorem witness_SetAddressByteRange :
    (let c := configFields 0x00082812; c.valid = true ∧ 1 < c.rows.toNat ∧ 39 < c.cols.toNat) ∧
      (let c := configFields 0x00040109; c.valid = true ∧ 0 < c.rows.toNat ∧ 0 < c.cols.toNat) := by decide

theorem witness_OnlyListedBytesAreSent :
    (ready false []).Inv ∧ (ready false []).busy = false ∧ ∃ t, exec (.setCursor 1 15) (ready false []) = .next t :=
  ⟨ready_inv false [], by decide, _, rfl⟩

/-! ### Witnesses: the sequencer -/

/-- A state of the invariant for every action, and one with none, each out of reset. -/
theorem witness_ActionsDriveThePads :
    ((ready true []).Inv ∧ (ready true []).pins.rstN = true) ∧
      ((running (.setBus true 0xFF) pulse 0 false []).Inv ∧ (running (.setBus true 0xFF) pulse 0 false []).pins.rstN = true) ∧
      ((running (.setE true) [.wait .short, .setE false, .wait .settle] 0 false []).Inv) ∧
      ((running (.setE false) [.wait .settle] 0 true []).Inv) ∧ ((running (.setBL true) [] 0 false []).Inv) ∧
      ((running .allLow [] 0 false []).Inv) ∧ ((initializing [] []).Inv ∧ (initializing [] []).pins.rstN = true) ∧
      ((setupWait []).Inv ∧ (setupWait []).pins.rstN = true) :=
  ⟨⟨ready_inv true [], rfl⟩, ⟨single_inv _ _ _ _ (by simp) (by decide) (by simp [pulse]) ⟨.rest, by decide, rfl⟩, rfl⟩,
    single_inv _ _ _ _ (by simp) (by decide) (by simp) ⟨.armed, by decide, rfl⟩,
    single_inv _ _ _ _ (by simp) (by decide) (by simp) ⟨.drop, by decide, rfl⟩,
    single_inv _ _ _ _ (by simp) (by decide) (by simp) ⟨.rest, by decide, rfl⟩,
    single_inv _ _ _ _ (by simp) (by decide) (by simp) ⟨.rest, by decide, rfl⟩,
    ⟨initializing_inv [] [] (by simp) (by simp) rfl, rfl⟩, ⟨setupWait_inv [], rfl⟩⟩

/-- And each of those states takes a step. -/
theorem witness_steps :
    (∃ t, step (ready true []) = .next t) ∧ (∃ t, step (running (.setBus true 0xFF) pulse 0 false []) = .next t) ∧
      (∃ t, step (initializing [] []) = .next t) ∧ (∃ t, step (setupWait []) = .next t) :=
  ⟨⟨_, step_run rfl rfl⟩, ⟨_, step_busy rfl rfl⟩, ⟨_, step_busy rfl rfl⟩, ⟨_, step_busy rfl rfl⟩⟩

/-- For WaitLastsExactly, EnablePulseWidth, BusyCoversTheQueueExactly and CommandRunsItsActions. -/
theorem witness_setupWait :
    (setupWait []).Inv ∧ (setupWait []).NoReset ∧ (setupWait []).current = some (.wait .short) ∧
      (setupWait []).waitCount = Delay.short.cycles ∧ (setupWait []).pads.e = false ∧
      (setupWait []).waitCount = Config.wShort ∧
      (setupWait []).pending = [.wait .short, .setE true, .wait .short, .setE false, .wait .settle] ++ [] ∧
      0 < (setupWait []).remaining :=
  ⟨setupWait_inv [], by simp [State.NoReset, setupWait, running, ready], rfl, rfl, rfl, rfl, rfl,
    by
      show 0 < Config.wShort + _ + _
      have := Config.delays_ordered
      omega⟩

/-- Every command of BusyTimes is accepted in some state; a configuration and a level of PINCTL_OK that INIT rejects, and a word that
sets an error. -/
theorem witness_BusyTimes :
    (∃ t, exec .init (unconfigured (cfg2x16 true) (writing .cmd 0x01000000)) = .next t) ∧
      (∃ t, exec .init (unconfigured .zero []) = .next t) ∧ CfgFields.zero.valid = false ∧
      (∃ t, exec .clear (ready true []) = .next t) ∧ (∃ t, exec .home (ready true []) = .next t) ∧
      (∃ t, exec (.cursorBlink true) (ready true []) = .next t) ∧ (∃ t, exec (.cursorVisible true) (ready true []) = .next t) ∧
      (∃ t, exec (.displayOn true) (ready true []) = .next t) ∧ (∃ t, exec (.moveLeft 0) (ready true []) = .next t) ∧
      (∃ t, exec (.moveLeft 255) (ready true []) = .next t) ∧ (∃ t, exec (.setCursor 1 15) (ready true []) = .next t) ∧
      (∃ t, exec (.setCursor 0 16) (ready true []) = .next t) ∧ (∃ t, exec (.printChar 0) (ready true []) = .next t) ∧
      (∃ t, exec (.backlight true) (ready true []) = .next t) ∧ (∃ t, exec .close (ready true []) = .next t) ∧
      (∃ t, (ready true []).handleCmd 0x0C000000 = .next t ∧ t.errors ≠ (ready true []).errors) ∧ Legal 0x0C000000 = false ∧
      (decode 0x01000000 = .ok .init ∧ (ready true []).initState ≠ .unconfigured) :=
  have run : ∀ i : Instr, i ≠ .init → ∃ t, exec i (ready true []) = .next t :=
    fun _ hi => ⟨_, exec_accept rfl rfl hi⟩
  ⟨⟨_, exec_init rfl rfl⟩, ⟨_, exec_init rfl rfl⟩, by decide, run _ (by decide), run _ (by decide), run _ (by decide),
    run _ (by decide), run _ (by decide), run _ (by decide), run _ (by decide), run _ (by decide), run _ (by decide),
    run _ (by decide), run _ (by decide), run _ (by decide), ⟨_, rfl, by decide⟩, by decide, by decide⟩

/-- For InitRunsToReady and InitFirstEnableRise, in both widths. -/
theorem witness_InitRuns :
    ∀ width : Bool, let s := unconfigured (cfg2x16 width) (.drive (.write .cmd 0x01000000 true) :: [.waitIdle true])
      s.Inv ∧ s.NoReset ∧ s.initState = .unconfigured ∧ s.config.valid = true ∧
        s.host = .drive (.write .cmd 0x01000000 true) :: [.waitIdle true] := by
  intro width
  refine ⟨unconfigured_inv _ _, ?_, rfl, by cases width <;> decide, rfl⟩
  simp [State.NoReset, unconfigured, HostAction.outOfReset, HostPins.write]

/-- WAIT_IDLE with no command in progress, and with one. -/
theorem witness_WaitIdleEnds :
    ((ready true [.waitIdle true]).Inv ∧ (ready true [.waitIdle true]).host = .waitIdle true :: []) ∧
      ((setupWait [.waitIdle true]).Inv ∧ (setupWait [.waitIdle true]).host = .waitIdle true :: []) :=
  ⟨⟨ready_inv _ _, rfl⟩, ⟨setupWait_inv _, rfl⟩⟩

/-! ### Witnesses: the whole machine -/

/-- For EveryStepKeepsTheInvariant and InitStateTransitions: a state for each branch of the transitions. -/
theorem witness_transitions :
    ((ready true [.drive .resetting]).Inv ∧ (ready true [.drive .resetting]).pins.rstN = false) ∧
      ((unconfigured (cfg2x16 true) (writing .cmd 0x01000000)).Inv ∧
        ∃ t, step (unconfigured (cfg2x16 true) (writing .cmd 0x01000000)) = .next t ∧ t.initState = .initializing) ∧
      ((unconfigured .zero []).Inv ∧ ∃ t, step (unconfigured .zero []) = .next t ∧ t.initState = .unconfigured) ∧
      ((initializing [] []).Inv ∧ (initializing [] []).remaining = 1) ∧
      ((initializing [.wait .settle] []).Inv ∧ (initializing [.wait .settle] []).remaining ≠ 1) ∧
      ((running .allLow [] 0 false []).Inv ∧ (running .allLow [] 0 false []).current = some .allLow) ∧
      ((running (.setBL true) [] 0 false []).Inv ∧ (running (.setBL true) [] 0 false []).current ≠ some .allLow) :=
  ⟨⟨ready_inv _ _, rfl⟩, ⟨unconfigured_inv _ _, _, step_run rfl rfl, rfl⟩, ⟨unconfigured_inv _ _, _, step_run rfl rfl, rfl⟩,
    ⟨initializing_inv _ _ (by simp) (by simp) rfl, by show 1 + 0 + 0 * _ = 1; simp⟩,
    ⟨initializing_inv _ _ (by simp) (by simp) rfl, by
      show 1 + (Config.wSettle + 0) + 0 * _ ≠ 1
      have := Config.delays_ordered
      omega⟩,
    ⟨single_inv _ _ _ _ (by simp) (by decide) (by simp) ⟨.rest, by decide, rfl⟩, rfl⟩,
    ⟨single_inv _ _ _ _ (by simp) (by decide) (by simp) ⟨.rest, by decide, rfl⟩, by decide⟩⟩

/-- ACFG changes by INIT, by CLOSE and by reset. -/
theorem witness_AcfgWriters :
    (∃ t, step (unconfigured (cfg2x16 true) (writing .cmd 0x01000000)) = .next t ∧ t.acfg ≠ CfgFields.zero) ∧
      (∃ t, step (running .allLow [] 0 false []) = .next t ∧ t.acfg ≠ cfg2x16 true) ∧
      (∃ t, step (ready true [.drive .resetting]) = .next t ∧ t.acfg ≠ cfg2x16 true) :=
  ⟨⟨_, step_run rfl rfl, by decide⟩, ⟨_, step_run rfl rfl, by decide⟩, ⟨_, step_reset rfl, by decide⟩⟩

/-- OE changes by SetOE(1) and by reset. -/
theorem witness_OutputEnableWriters :
    ((initializing [] []).Inv ∧ ∃ t, step (initializing [] []) = .next t ∧ t.pads.oe ≠ (initializing [] []).pads.oe) ∧
      ((ready true [.drive .resetting]).Inv ∧
        ∃ t, step (ready true [.drive .resetting]) = .next t ∧ t.pads.oe ≠ (ready true [.drive .resetting]).pads.oe) :=
  ⟨⟨initializing_inv [] [] (by simp) (by simp) rfl, _, step_run rfl rfl, by decide⟩,
    ⟨ready_inv _ _, _, step_reset rfl, by decide⟩⟩

theorem witness_LatchesLowUntilInitWrites :
    ((unconfigured .zero []).Inv ∧ (unconfigured .zero []).initState = .unconfigured) ∧
      ((initializing [] []).Inv ∧ (initializing [] []).current = some (.setOE true)) :=
  ⟨⟨unconfigured_inv _ _, rfl⟩, initializing_inv [] [] (by simp) (by simp) rfl, rfl⟩

/-- Reset in the middle of a command, with a write in the same cycle. -/
theorem witness_ResetTakesEveryState :
    (setupWait [.drive { HostPins.write .config 0xFF true with rstN := false }]).pins.rstN = false := rfl

theorem witness_ConfigDoesNotReachARunningCommand :
    (setupWait []).busy = true ∧ ∃ t, step (setupWait []) = .next t := ⟨rfl, _, step_busy rfl rfl⟩

theorem witness_StepRunsTheDecodedCommand :
    (let s := ready true (writing .cmd 0x0A000001);
      s.pins.rstN = true ∧ s.pins.hwe = true ∧ s.pins.haddr = 0 ∧ decode s.pins.hwdata = .ok (.backlight true)) ∧
      decodeTableWord 32 0x070000FF = some (.moveLeft 255) := by decide

/-- The largest operands that the fields hold, and the boundary counts. -/
theorem witness_SetCfgAndPseudoInstructions :
    (3 < 4 ∧ 255 < 256 ∧ 15 < 16) ∧ ((0 : Int) ≤ 0 ∧ (-1 : Int) ≤ 0) ∧ (0 : Int) ≤ 255 ∧ (255 : Int) < 256 ∧
      ((1 : Int) ≤ 1 ∧ (1 : Int) ≤ 255) ∧ (1 : Int) ≤ 255 ∧ (255 : Int) ≤ 255 := by decide

/-- OE = 0 and OE = 1, a step in which the pads change by reset, by SetOE(1) and by SetBL, and a READY state. -/
theorem witness_PadLevels :
    State.reset.pads.oe = false ∧ (ready true []).pads.oe = true ∧
      ((ready true [.drive .resetting]).Inv ∧
        ∃ t, step (ready true [.drive .resetting]) = .next t ∧ t.pads ≠ (ready true []).pads) ∧
      ((initializing [] []).Inv ∧ ∃ t, step (initializing [] []) = .next t ∧ t.pads ≠ (initializing [] []).pads ∧
        t.pads.oe ≠ (initializing [] []).pads.oe) ∧
      ((running (.setBL true) [] 0 false []).Inv ∧ ∃ t, step (running (.setBL true) [] 0 false []) = .next t ∧
        t.pads ≠ (running (.setBL true) [] 0 false []).pads) ∧
      ((ready true []).Inv ∧ (ready true []).initState ≠ .unconfigured ∧ (ready true []).current ≠ some (.setOE true)) :=
  ⟨rfl, rfl, ⟨ready_inv _ _, _, step_reset rfl, by decide⟩,
    ⟨initializing_inv [] [] (by simp) (by simp) rfl, _, step_run rfl rfl, by decide, by decide⟩,
    ⟨single_inv _ _ _ _ (by simp) (by decide) (by simp) ⟨.rest, by decide, rfl⟩, _, step_run rfl rfl, by decide⟩,
    ⟨ready_inv _ _, by decide, by decide⟩⟩

end Sys2Proof.Tests
end

section
/-! SUPPORT. The rules that the statements about the init state machine and the pads are assembled from: which accesses begin INIT
and what every other access leaves, one cycle of the sequencer in a state of the invariant, and a step by BUSY. -/

namespace Sys2Proof.Machine

/-! ### The words that decode to INIT -/

theorem decodeNoOperand_eq_ok_iff {w : Word} {i j : Instr} :
    decodeNoOperand w i = .ok j ↔ aField w = 0 ∧ bField w = 0 ∧ i = j := by
  unfold decodeNoOperand
  split <;> [simp_all; (split <;> simp_all)]

theorem decodeOnOff_eq_ok_iff {w : Word} {i : Bool → Instr} {j : Instr} :
    decodeOnOff w i = .ok j ↔ aField w = 0 ∧ (bField w).extractLsb' 1 7 = 0 ∧ i (w.getLsbD 0) = j := by
  unfold decodeOnOff
  split <;> [simp_all; (split <;> simp_all)]

theorem decodeOperandB_eq_ok_iff {w : Word} {i : Byte → Instr} {j : Instr} :
    decodeOperandB w i = .ok j ↔ aField w = 0 ∧ i (bField w) = j := by
  unfold decodeOperandB
  split <;> simp_all

/-- INIT has one word (30_encoding.md R61). -/
theorem decode_eq_init_iff {w : Word} : decode w = .ok .init ↔ w = 0x01000000 := by
  refine ⟨fun h => ?_, fun h => by subst h; decide⟩
  unfold decode at h
  split at h
  · cases h
  next hrsv =>
    split at h
    case h_1 hopc =>
      obtain ⟨ha, hb, -⟩ := decodeNoOperand_eq_ok_iff.1 h
      have hopc : opcField w = 0x01 := BitVec.eq_of_toNat_eq hopc
      rw [← commandWord_fields (Decidable.not_not.1 hrsv), hopc, ha, hb]
      decide
    all_goals simp [decodeNoOperand_eq_ok_iff, decodeOnOff_eq_ok_iff, decodeOperandB_eq_ok_iff] at h

/-! ### What an access does -/

/-- The host writes an INIT to CMD in this cycle, and both of INIT's checks pass (42_lifecycle.md R99). -/
def State.WritesInit (s : State) : Prop :=
  s.pins.hwe = true ∧ s.pins.haddr = 0 ∧ s.pins.hwdata = 0x01000000 ∧ s.config.valid = true ∧ s.pinctlOk = true

/-- In an idle UNCONFIGURED block, such a write begins INIT. -/
theorem access_eq_begin {s : State} (hb : s.busy = false) (hu : s.initState = .unconfigured) (hw : s.WritesInit) :
    s.access = .next s.begin := by
  obtain ⟨hwe, haddr, hdata, hvalid, hok⟩ := hw
  have hreg : HostReg.ofIndex s.pins.haddr = .cmd := (ofIndex_iff _).1.2 haddr
  simp [State.access, hwe, hreg, State.hostWrite, handleCmd_legal s (decode_eq_init_iff.2 hdata), exec_init hb hu,
    hvalid, hok]

/-- An accepted runtime command leaves STATE, ACFG and the pads: what it does to them is left to its actions. -/
theorem acceptedState_frame (s : State) (i : Instr) :
    (acceptedState s i).initState = s.initState ∧ (acceptedState s i).acfg = s.acfg ∧
      (acceptedState s i).pads = s.pads := by
  cases i with
  | init => exact ⟨rfl, rfl, rfl⟩
  | setCursor row col => simp only [acceptedState]; split <;> simp
  | _ => simp [acceptedState]

/-- An access begins INIT, or leaves STATE, ACFG and the pads. -/
theorem access_begins_or_keeps {s u : State} (h : s.access = .next u) :
    (s.busy = false ∧ s.initState = .unconfigured ∧ s.WritesInit ∧ u = s.begin) ∨
    (u.initState = s.initState ∧ u.acfg = s.acfg ∧ u.pads = s.pads) := by
  rcases access_cases s with ⟨hwe, hreg, ha⟩ | ⟨-, -, ha⟩ | ⟨-, -, ha⟩ | ha
  · rcases handleCmd_cases s.pins.hwdata s with ⟨e, hc⟩ | ⟨hb, hu, hvalid, hok, hdec, hc⟩ | ⟨i, -, -, -, -, hc⟩ <;>
      rw [ha, hc] at h <;> cases h
    · exact .inr ⟨rfl, rfl, rfl⟩
    · exact .inl ⟨hb, hu, ⟨hwe, (ofIndex_iff _).1.1 hreg, decode_eq_init_iff.1 hdec, hvalid, hok⟩, rfl⟩
    · exact .inr (acceptedState_frame s i)
  all_goals
    rw [ha] at h
    cases h
    exact .inr ⟨rfl, rfl, rfl⟩

/-- No access moves a pad: only actions do (00_scope.md R12). -/
theorem access_pads {s u : State} (h : s.access = .next u) : u.pads = s.pads := by
  obtain ⟨-, -, -, rfl⟩ | ⟨-, -, hpads⟩ := access_begins_or_keeps h
  · exact State.begin_pads s
  · exact hpads

/-! ### A step by BUSY -/

/-- What a step can do: reset; with BUSY = 1, the sequencer's cycle beside the access's error bits and CONFIG; with BUSY = 0, the
access alone. -/
theorem step_cases_by_busy {s t : State} (h : step s = .next t) :
    (s.pins.rstN = false ∧ t = s.endCycle none s.resetBlock) ∨
    (s.pins.rstN = true ∧ s.busy = true ∧ t = s.endCycle s.readData
      { s.seqCycle with errors := accessErrors s.pins s.errors, config := accessConfig s.pins s.config }) ∨
    (s.pins.rstN = true ∧ s.busy = false ∧ ∃ u, s.access = .next u ∧ t = s.endCycle s.readData u) := by
  rcases step_cases h with hreset | ⟨hr, u, hu, ht⟩
  · exact .inl hreset
  · rcases hb : s.busy with _ | _
    · exact .inr (.inr ⟨hr, rfl, u, hu, by simpa [hb] using ht⟩)
    · rw [step_busy hr hb] at h
      cases h
      exact .inr (.inl ⟨hr, rfl, rfl⟩)

/-- The end of a cycle leaves BUSY. -/
@[simp] theorem endCycle_busy (s : State) (read : Option Word) (t : State) : (s.endCycle read t).busy = t.busy := rfl

/-! ### The sequencer's cycle in a state of the invariant -/

theorem actionsDuration_eq_zero_iff (acts : List Action) : actionsDuration acts = 0 ↔ acts = [] := by
  cases acts with
  | nil => simp
  | cons a rest =>
    have := duration_pos a
    simp only [actionsDuration_cons, reduceCtorEq, iff_false]
    omega

/-- A busy block of the invariant has a current action, which completes in its last cycle; a wait that is not in its last cycle
counts down. -/
theorem seqCycle_cases_of_inv {s : State} (hinv : s.Inv) (hb : s.busy = true) :
    ∃ a, s.current = some a ∧
      ((a.cyclesLeft s.waitCount = 1 ∧ s.seqCycle = s.complete a) ∨
       (1 < a.cyclesLeft s.waitCount ∧ (∃ d, a = .wait d) ∧ s.seqCycle = { s with waitCount := s.waitCount - 1 })) := by
  rcases seqCycle_cases s with ⟨hc, -⟩ | ⟨a, hc, hw, hseq⟩ | ⟨a, hc, hw, hseq⟩
  · obtain ⟨hq, hrep, -⟩ := hinv.idle hc
    simp [State.busy, hc, hq, hrep] at hb
  · refine ⟨a, hc, .inl ⟨?_, hseq⟩⟩
    cases a with
    | wait d => exact le_antisymm hw ((hinv.waits _ hc).1 d rfl).1
    | _ => rfl
  · refine ⟨a, hc, .inr ?_⟩
    cases a with
    | wait d => exact ⟨hw, ⟨d, rfl⟩, hseq⟩
    | _ =>
      have := (hinv.waits _ hc).2 (by simp)
      omega

/-- The sequencer is idle after the next action's start exactly where nothing was left to start. -/
theorem advance_busy_eq_false_iff (s : State) : s.advance.busy = false ↔ s.queue = [] ∧ s.repeatLeft = 0 := by
  rw [busy_eq_false_iff, pending_advance]
  cases s.repeatLeft <;> simp [List.replicate_succ, busWrite_ne_nil]

/-- STATE after an action completes: CLOSE's AllLow tears down, and the last action of INIT's queue ends INITIALIZING
(10_state.md R24). -/
theorem complete_initState (a : Action) (s : State) :
    (s.complete a).initState
      = if a = .allLow then .unconfigured
        else if s.initState = .initializing ∧ s.queue = [] ∧ s.repeatLeft = 0 then .ready else s.initState := by
  by_cases ha : a = .allLow <;> simp [State.complete, advance_busy_eq_false_iff, ha]

/-- A block that the end of INIT's queue leaves INITIALIZING is busy. -/
theorem settleInit_busy_of_initializing {s : State} (h : s.settleInit.initState = .initializing) :
    s.settleInit.busy = true := by
  rw [busy_settleInit]
  rcases hb : s.busy with _ | _
  · by_cases hs : s.initState = .initializing <;> simp [hb, hs] at h
  · rfl

/-- From INITIALIZING, READY in the last cycle of the queue and in no other. -/
theorem seqCycle_initState_of_initializing {s : State} (hinv : s.Inv) (hs : s.initState = .initializing) :
    s.seqCycle.initState = if s.remaining = 1 then .ready else .initializing := by
  have hrep : s.repeatLeft = 0 := by
    by_contra hne
    simpa [hs] using hinv.repeats hne
  obtain ⟨a, hc, ⟨hleft, hseq⟩ | ⟨hleft, -, hseq⟩⟩ := seqCycle_cases_of_inv hinv (hinv.initializing hs)
  · have ha : a ≠ .allLow := by
      rintro rfl
      simpa [hs] using (hinv.allLow (by simp [pending_of_current hc])).1
    simp [hseq, complete_initState, ha, hs, hrep, State.remaining, hc, hleft, actionsDuration_eq_zero_iff]
  · have hrem : s.remaining ≠ 1 := by
      simp only [State.remaining, hc]
      omega
    simp [hseq, hs, hrem]

/-- From READY, UNCONFIGURED where CLOSE's AllLow completes and nowhere else. -/
theorem seqCycle_initState_of_ready {s : State} (hinv : s.Inv) (hb : s.busy = true) (hs : s.initState = .ready) :
    s.seqCycle.initState = if s.current = some .allLow then .unconfigured else .ready := by
  obtain ⟨a, hc, ⟨-, hseq⟩ | ⟨-, ⟨d, rfl⟩, hseq⟩⟩ := seqCycle_cases_of_inv hinv hb
  · simp [hseq, complete_initState, hc, hs]
  · simp [hseq, hc, hs]

/-- BUSY is 1 where the sequencer's cycle leaves the block INITIALIZING. -/
theorem seqCycle_busy_of_initializing {s : State} (hinv : s.Inv) (hb : s.busy = true)
    (h : s.seqCycle.initState = .initializing) : s.seqCycle.busy = true := by
  obtain ⟨a, -, ⟨-, hseq⟩ | ⟨-, -, hseq⟩⟩ := seqCycle_cases_of_inv hinv hb
  · rw [hseq] at h ⊢
    exact settleInit_busy_of_initializing h
  · rw [hseq]
    exact hb

/-- INIT begins with its first action current. -/
@[simp] theorem begin_busy (s : State) : s.begin.busy = true := by simp [State.begin, State.busy, initActions]

/-! ### The pads -/

/-- Only SetOE changes OE (00_scope.md R12). -/
theorem eq_setOE_of_apply_oe_ne {a : Action} {p : Pads} (h : (a.apply p).oe ≠ p.oe) : ∃ v, a = .setOE v := by
  cases a with
  | setOE v => exact ⟨v, rfl⟩
  | _ => exact absurd rfl h

theorem latch_of_low {p : Pads} (h : p.Low) (q : Pad) : p.latch q = false := by
  obtain ⟨hrs, he, hbl, hdl⟩ := h
  cases q <;> simp [hrs, he, hbl, hdl]

/-- Out of reset a step changes the pads only as the action being carried out says. -/
theorem step_pads {s t : State} (hr : s.pins.rstN = true) (h : step s = .next t) :
    t.pads = s.pads ∨ ∃ a, s.current = some a ∧ t.pads = a.apply s.pads := by
  rcases step_cases_by_busy h with ⟨hr', -⟩ | ⟨-, -, rfl⟩ | ⟨-, -, u, hu, rfl⟩
  · simp [hr] at hr'
  · exact seqCycle_pads s
  · exact .inl (by simpa using access_pads hu)

/-- In a state of the invariant, an action that changes OE is INIT's SetOE(1), and it turns the drivers on with every latch low
(42_lifecycle.md R101, R102). -/
theorem setOE_true_of_apply_oe_ne {s : State} (hinv : s.Inv) {a : Action} (hc : s.current = some a)
    (hoe : (a.apply s.pads).oe ≠ s.pads.oe) :
    a = .setOE true ∧ s.initState = .initializing ∧ ∀ q : Pad, (a.apply s.pads).level q = .driven false := by
  obtain ⟨v, rfl⟩ := eq_setOE_of_apply_oe_ne hoe
  obtain ⟨rfl, hs, hlow⟩ := (hinv.setOE v).2 hc
  have hlow' : ((Action.setOE true).apply s.pads).Low := hlow
  exact ⟨rfl, hs, fun q => by rw [level_driven rfl, latch_of_low hlow']⟩

/-! ### The obligations -/

/-- Settles O60, by the rules of the pads' outputs, the inversion of a step's effect on the pads and the invariant of OE. -/
theorem padLevels : Obligations.PadLevels := by
  intro s
  refine ⟨level_highZ, fun hoe => ?_, fun t hinv hstep hne => ?_, fun hinv hs hc q => ?_⟩
  · exact ⟨level_driven hoe _, level_driven hoe _, level_driven hoe _, fun i => level_driven hoe _⟩
  · rcases hr : s.pins.rstN with _ | _
    · rw [step_reset hr] at hstep
      cases hstep
      exact .inl ⟨rfl, rfl⟩
    · obtain ⟨a, hc, ht⟩ := (step_pads hr hstep).resolve_left hne
      rw [ht]
      exact .inr ⟨rfl, a, hc, rfl, setOE_true_of_apply_oe_ne hinv hc⟩
  · have hoe : s.pads.oe = true := (hinv.driven hs).resolve_right hc
    simp [level_driven hoe]

/-- Settles O50, by the three kinds of cycle: reset, the sequencer's cycle of a busy block, and the access of an idle one. -/
theorem initStateTransitions : Obligations.InitStateTransitions := by
  intro s t hinv hstep
  rcases step_cases_by_busy hstep with ⟨hr, rfl⟩ | ⟨hr, hb, rfl⟩ | ⟨hr, hb, u, hu, rfl⟩
  · simp [hr, State.reset]
  · refine ⟨?_, seqCycle_busy_of_initializing hinv hb⟩
    cases hs : s.initState with
    | unconfigured =>
      obtain ⟨-, -, hidle, -⟩ := hinv.unconfigured hs
      simp [hb] at hidle
    | initializing => simpa [hr] using seqCycle_initState_of_initializing hinv hs
    | ready => simpa [hr] using seqCycle_initState_of_ready hinv hb hs
  · obtain ⟨-, hs, hw, rfl⟩ | ⟨hkeep, -, -⟩ := access_begins_or_keeps hu
    · simpa [hr, hs, State.WritesInit] using hw
    · have hidle : s.initState ≠ .initializing := fun hs => by simpa [hb] using hinv.initializing hs
      refine ⟨?_, fun ht => absurd (hkeep ▸ ht) hidle⟩
      cases hs : s.initState with
      | unconfigured =>
        have hw : ¬ s.WritesInit := fun hw => by
          rw [access_eq_begin hb hs hw] at hu
          cases hu
          simp [hs] at hkeep
        simpa [hr, hkeep, hs, State.WritesInit] using hw
      | initializing => exact absurd hs hidle
      | ready => simp [hr, hkeep, hs, (idle_fields hb).1]

end Sys2Proof.Machine
end

section
/-! SUPPORT. A cycle without a write, and the statement about reads that is assembled from it (20_memory.md R43). -/

namespace Sys2Proof.Machine

/-! ### A cycle without a write -/

/-- Without HWE the access leaves the state as it is. -/
theorem access_of_no_write {s : State} (hw : s.pins.hwe = false) : s.access = .next s := by
  simp [State.access, hw]

/-- A cycle out of reset without a write is the sequencer's alone, read or no read. -/
theorem step_of_no_write {s : State} (hr : s.pins.rstN = true) (hw : s.pins.hwe = false) :
    step s = .next (s.endCycle s.readData (if s.busy then s.seqCycle else s)) :=
  step_run hr (access_of_no_write hw)

/-- The end of a cycle changes no host register. -/
@[simp] theorem endCycle_hostRead (s : State) (read : Option Word) (t : State) (r : HostReg) :
    (s.endCycle read t).hostRead r = t.hostRead r := by
  cases r <;> rfl

/-- The sequencer does not look at the host's script and does not change it. -/
theorem seqCycle_host (s : State) (l : List HostAction) :
    ({ s with host := l } : State).seqCycle = { s.seqCycle with host := l } := by
  simpa using seqCycle_environment s s.errors s.config s.hrdata l s.draws

/-- A cycle in which the host drives p without a write: of p, only what it reads reaches the state, and only HRDATA. -/
theorem step_drive_of_no_write (s : State) {p : HostPins} (later : List HostAction) (hr : p.rstN = true)
    (hw : p.hwe = false) :
    step { s with host := .drive p :: later }
      = .next { (if s.busy then s.seqCycle else s) with
          hrdata := if p.hre then some (s.hostRead (.ofIndex p.haddr)) else none
          host := later
          draws := s.draws + 1 } := by
  have hread : ({ s with host := .drive p :: later } : State).readData
      = if p.hre then some (s.hostRead (.ofIndex p.haddr)) else none := by
    simp only [State.readData, State.pins, hw]
    cases HostReg.ofIndex p.haddr <;> rfl
  rw [step_of_no_write (s := { s with host := .drive p :: later }) hr hw, hread, seqCycle_host]
  have hbusy : ({ s with host := .drive p :: later } : State).busy = s.busy := rfl
  rw [hbusy]
  cases s.busy <;> rfl

/-! ### The obligation -/

/-- Settles O8: the cycle of a read and the cycle of an idle bus are the same cycle of the sequencer but for HRDATA, and where
BUSY = 0 that cycle changes no register. -/
theorem readsHaveNoSideEffect : Obligations.ReadsHaveNoSideEffect := by
  refine ⟨fun s t p later hhost hr hre hw hstep => ?_, fun _ => rfl, fun s t r hr hw hb hstep => ?_⟩
  · have hread := step_drive_of_no_write s later hr hw
    rw [← hhost, hstep] at hread
    cases hread
    exact ⟨by simp [hre], _, step_drive_of_no_write s later (p := .idle p.pinctlOk) rfl rfl, rfl⟩
  · rw [step_of_no_write hr hw] at hstep
    cases hstep
    simp [hb]

end Sys2Proof.Machine
end

section
/-! SUPPORT. The decoder by the fields of a word and by its mask and match, and the two statements about it (30_encoding.md R61
to R63). -/

namespace Sys2Proof

open Machine

/-! ### The decoder by fields -/

/-- The fields A and B of w are the command's operands, and their bits that are no operand are 0 (30_encoding.md R61). -/
def Instr.OperandsIn (w : Word) : Instr → Prop
  | .init => aField w = 0 ∧ bField w = 0
  | .clear => aField w = 0 ∧ bField w = 0
  | .home => aField w = 0 ∧ bField w = 0
  | .cursorBlink on => aField w = 0 ∧ (bField w).extractLsb' 1 7 = 0 ∧ on = w.getLsbD 0
  | .cursorVisible on => aField w = 0 ∧ (bField w).extractLsb' 1 7 = 0 ∧ on = w.getLsbD 0
  | .displayOn on => aField w = 0 ∧ (bField w).extractLsb' 1 7 = 0 ∧ on = w.getLsbD 0
  | .moveLeft n => aField w = 0 ∧ n = (bField w).toNat
  | .setCursor row col => row = (aField w).toNat ∧ col = (bField w).toNat
  | .printChar g => aField w = 0 ∧ g = bField w
  | .backlight on => aField w = 0 ∧ (bField w).extractLsb' 1 7 = 0 ∧ on = w.getLsbD 0
  | .close => aField w = 0 ∧ bField w = 0

/-- A word is a command exactly when RSV is 0, OPC is the command's opcode, and A and B hold its operands. -/
theorem decode_eq_ok_iff {w : Word} {i : Instr} :
    decode w = .ok i ↔ rsvField w = 0 ∧ opcField w = opcodeOf i ∧ i.OperandsIn w := by
  constructor
  · intro h
    unfold decode at h
    split at h
    · cases h
    next hrsv =>
      refine ⟨Decidable.not_not.1 hrsv, ?_⟩
      split at h
      case h_1 hopc | h_2 hopc | h_3 hopc | h_11 hopc =>
        obtain ⟨ha, hb, rfl⟩ := decodeNoOperand_eq_ok_iff.1 h
        exact ⟨BitVec.eq_of_toNat_eq hopc, ha, hb⟩
      case h_4 hopc | h_5 hopc | h_6 hopc | h_10 hopc =>
        obtain ⟨ha, hb, rfl⟩ := decodeOnOff_eq_ok_iff.1 h
        exact ⟨BitVec.eq_of_toNat_eq hopc, ha, hb, rfl⟩
      case h_7 hopc | h_9 hopc =>
        obtain ⟨ha, rfl⟩ := decodeOperandB_eq_ok_iff.1 h
        exact ⟨BitVec.eq_of_toNat_eq hopc, ha, rfl⟩
      case h_8 hopc =>
        cases h
        exact ⟨BitVec.eq_of_toNat_eq hopc, rfl, rfl⟩
      case h_12 => cases h
  · rintro ⟨hrsv, hopc, hops⟩
    cases i
    case init | clear | home | close =>
      simpa [decode, hrsv, hopc, opcodeOf] using decodeNoOperand_eq_ok_iff.2 ⟨hops.1, hops.2, rfl⟩
    case cursorBlink on | cursorVisible on | displayOn on | backlight on =>
      obtain ⟨ha, hb, rfl⟩ := hops
      simpa [decode, hrsv, hopc, opcodeOf] using decodeOnOff_eq_ok_iff.2 ⟨ha, hb, rfl⟩
    case moveLeft n | printChar g =>
      obtain ⟨ha, rfl⟩ := hops
      simpa [decode, hrsv, hopc, opcodeOf] using decodeOperandB_eq_ok_iff.2 ⟨ha, rfl⟩
    case setCursor row col =>
      obtain ⟨rfl, rfl⟩ := hops
      simp [decode, hrsv, hopc, opcodeOf]

/-! ### Mask and match -/

/-- The mask of all bits from k on rounds a number down to a multiple of 2^k. -/
theorem toNat_and_allOnes_shiftLeft {n : Nat} (x : BitVec n) (k : Nat) :
    (x &&& BitVec.allOnes n <<< k).toNat = x.toNat / 2 ^ k * 2 ^ k := by
  rw [← BitVec.shiftLeft_ushiftRight, BitVec.toNat_shiftLeft, BitVec.toNat_ushiftRight, Nat.shiftLeft_eq,
    Nat.shiftRight_eq_div_pow]
  exact Nat.mod_eq_of_lt (lt_of_le_of_lt (Nat.div_mul_le_self _ _) x.isLt)

/-- How many low bits of a command's word are operands: those outside its mask (30_encoding.md R61). -/
def operandBits : Instr → Nat
  | .init => 0
  | .clear => 0
  | .home => 0
  | .cursorBlink _ => 1
  | .cursorVisible _ => 1
  | .displayOn _ => 1
  | .moveLeft _ => 8
  | .setCursor _ _ => 16
  | .printChar _ => 8
  | .backlight _ => 1
  | .close => 0

/-- The command's operands are the unsigned values of w's operand bits (30_encoding.md R62). -/
def Instr.ReadsOperands (w : Word) : Instr → Prop
  | .init => True
  | .clear => True
  | .home => True
  | .cursorBlink on => on = w.getLsbD 0
  | .cursorVisible on => on = w.getLsbD 0
  | .displayOn on => on = w.getLsbD 0
  | .moveLeft n => n = w.toNat % 256
  | .setCursor row col => row = w.toNat / 256 % 256 ∧ col = w.toNat % 256
  | .printChar g => g.toNat = w.toNat % 256
  | .backlight on => on = w.getLsbD 0
  | .close => True

/-- The mask of a command's row, as the table writes it (30_encoding.md R61). -/
def commandMask : Instr → Word
  | .init => 0xFFFFFFFF
  | .clear => 0xFFFFFFFF
  | .home => 0xFFFFFFFF
  | .cursorBlink _ => 0xFFFFFFFE
  | .cursorVisible _ => 0xFFFFFFFE
  | .displayOn _ => 0xFFFFFFFE
  | .moveLeft _ => 0xFFFFFF00
  | .setCursor _ _ => 0xFFFF0000
  | .printChar _ => 0xFFFFFF00
  | .backlight _ => 0xFFFFFFFE
  | .close => 0xFFFFFFFF

/-- A mask is ones from the operand bits on. -/
theorem commandMask_eq (i : Instr) : commandMask i = BitVec.allOnes 32 <<< operandBits i := by
  cases i <;> simp only [commandMask, operandBits] <;> decide

/-- The match of a command's row, as the table writes it (30_encoding.md R61). -/
def commandMatch : Instr → Word
  | .init => 0x01000000
  | .clear => 0x02000000
  | .home => 0x03000000
  | .cursorBlink _ => 0x04000000
  | .cursorVisible _ => 0x05000000
  | .displayOn _ => 0x06000000
  | .moveLeft _ => 0x07000000
  | .setCursor _ _ => 0x08000000
  | .printChar _ => 0x09000000
  | .backlight _ => 0x0A000000
  | .close => 0x0B000000

/-- A match is the opcode over 0. -/
theorem commandMatch_toNat (i : Instr) : (commandMatch i).toNat = (opcodeOf i).toNat * 2 ^ 24 := by
  cases i <;> simp only [commandMatch, opcodeOf] <;> decide

theorem bField_high_toNat (w : Word) : ((bField w).extractLsb' 1 7).toNat = w.toNat / 2 % 128 := by
  rw [BitVec.extractLsb'_toNat, bField_toNat, Nat.shiftRight_eq_div_pow]
  omega

/-- B[7:1] is word[7:1]. -/
theorem bField_high (w : Word) : (bField w).extractLsb' 1 7 = w.extractLsb' 1 7 := by
  rw [BitVec.toNat_eq, bField_high_toNat, BitVec.extractLsb'_toNat, Nat.shiftRight_eq_div_pow]

/-- The fields A and B hold a command's operands exactly when their bits above the operand bits are 0. -/
theorem operandsIn_iff {w : Word} {i : Instr} :
    i.OperandsIn w ↔ w.toNat / 2 ^ operandBits i % 2 ^ (16 - operandBits i) = 0 ∧ i.ReadsOperands w := by
  cases i
  case init | clear | home | close =>
    simp only [Instr.OperandsIn, Instr.ReadsOperands, operandBits, BitVec.toNat_eq, aField_toNat, bField_toNat,
      byte_zero_toNat, and_true]
    omega
  case cursorBlink on | cursorVisible on | displayOn on | backlight on =>
    simp only [Instr.OperandsIn, Instr.ReadsOperands, operandBits, BitVec.toNat_eq, aField_toNat, bField_high_toNat,
      BitVec.ofNat_eq_ofNat, BitVec.toNat_ofNat, ← and_assoc]
    refine and_congr_left' ?_
    omega
  case moveLeft n | setCursor row col | printChar g =>
    simp only [Instr.OperandsIn, Instr.ReadsOperands, operandBits, BitVec.toNat_eq, aField_toNat, bField_toNat,
      byte_zero_toNat]
    omega

/-- A word is a command exactly when its bits outside the operands are the command's match. -/
theorem decode_eq_ok_iff_match {w : Word} {i : Instr} :
    decode w = .ok i ↔ w &&& commandMask i = commandMatch i ∧ i.ReadsOperands w := by
  rw [decode_eq_ok_iff, operandsIn_iff, ← and_assoc, ← and_assoc, commandMask_eq]
  refine and_congr_left' ?_
  have hw := w.isLt
  have hopc := (opcodeOf i).isLt
  simp only [BitVec.toNat_eq, toNat_and_allOnes_shiftLeft, commandMatch_toNat, rsvField_toNat, opcField_toNat,
    byte_zero_toNat]
  have hbits : operandBits i = 0 ∨ operandBits i = 1 ∨ operandBits i = 8 ∨ operandBits i = 16 := by
    cases i <;> simp [operandBits]
  rcases hbits with h | h | h | h <;> rw [h] <;> omega

/-- Settles O5, by the decoder's mask and match. -/
theorem maskAndMatchDecide : Obligations.MaskAndMatchDecide := fun _ =>
  ⟨decode_eq_ok_iff_match.trans (and_iff_left trivial), decode_eq_ok_iff_match.trans (and_iff_left trivial),
    decode_eq_ok_iff_match.trans (and_iff_left trivial), fun _ => decode_eq_ok_iff_match, fun _ => decode_eq_ok_iff_match,
    fun _ => decode_eq_ok_iff_match, fun _ => decode_eq_ok_iff_match, fun _ _ => decode_eq_ok_iff_match,
    fun _ => decode_eq_ok_iff_match, fun _ => decode_eq_ok_iff_match, decode_eq_ok_iff_match.trans (and_iff_left trivial)⟩

/-! ### Illegal words -/

theorem legal_eq_false_iff {w : Word} : Legal w = false ↔ ∃ e, decode w = .error e := by
  unfold Legal
  cases decode w <;> simp [Except.toOption]

theorem decodeNoOperand_eq_error_iff {w : Word} {i : Instr} :
    (∃ e, decodeNoOperand w i = .error e) ↔ aField w ≠ 0 ∨ bField w ≠ 0 := by
  unfold decodeNoOperand
  split <;> [simp_all; (split <;> simp_all)]

theorem decodeOnOff_eq_error_iff {w : Word} {i : Bool → Instr} :
    (∃ e, decodeOnOff w i = .error e) ↔ aField w ≠ 0 ∨ (bField w).extractLsb' 1 7 ≠ 0 := by
  unfold decodeOnOff
  split <;> [simp_all; (split <;> simp_all)]

theorem decodeOperandB_eq_error_iff {w : Word} {i : Byte → Instr} :
    (∃ e, decodeOperandB w i = .error e) ↔ aField w ≠ 0 := by
  unfold decodeOperandB
  split <;> simp_all

/-- The word is illegal by this bullet of 30_encoding.md R63. -/
def Illegal.Holds (w : Word) : Illegal → Prop
  | .unknownOpcode => (opcField w).toNat = 0 ∨ 0x0C ≤ (opcField w).toNat
  | .reservedNotZero => rsvField w ≠ 0
  | .operandANotZero => aField w ≠ 0 ∧ opcField w ≠ 0x08
  | .operandBNotABit => (bField w).extractLsb' 1 7 ≠ 0 ∧
      (opcField w = 0x04 ∨ opcField w = 0x05 ∨ opcField w = 0x06 ∨ opcField w = 0x0A)
  | .operandBNotZero => bField w ≠ 0 ∧
      (opcField w = 0x01 ∨ opcField w = 0x02 ∨ opcField w = 0x03 ∨ opcField w = 0x0B)

theorem exists_illegal_iff {P : Illegal → Prop} :
    (∃ e, P e) ↔ P .unknownOpcode ∨ P .reservedNotZero ∨ P .operandANotZero ∨ P .operandBNotABit ∨ P .operandBNotZero := by
  constructor
  · rintro ⟨e, he⟩
    cases e <;> simp [he]
  · rintro (h | h | h | h | h) <;> exact ⟨_, h⟩

theorem opcField_eq_ofNat {w : Word} {n : Nat} (h : (opcField w).toNat = n) : opcField w = BitVec.ofNat 8 n := by
  rw [← h, BitVec.ofNat_toNat, BitVec.setWidth_eq]

/-- The decoder refuses a word exactly where one of the bullets holds. -/
theorem decode_eq_error_iff {w : Word} : (∃ e, decode w = .error e) ↔ ∃ e : Illegal, e.Holds w := by
  by_cases hrsv : rsvField w = 0
  · rw [exists_illegal_iff (P := Illegal.Holds w)]
    simp only [decode, Illegal.Holds, hrsv, ne_eq, not_true_eq_false, false_or, if_false]
    split
    case h_1 hopc | h_2 hopc | h_3 hopc | h_11 hopc =>
      simp [decodeNoOperand_eq_error_iff, opcField_eq_ofNat hopc]
    case h_4 hopc | h_5 hopc | h_6 hopc | h_10 hopc =>
      simp [decodeOnOff_eq_error_iff, opcField_eq_ofNat hopc]
    case h_7 hopc | h_9 hopc => simp [decodeOperandB_eq_error_iff, opcField_eq_ofNat hopc]
    case h_8 hopc => simp [opcField_eq_ofNat hopc]
    case h_12 =>
      have hopc : (opcField w).toNat = 0 ∨ 0x0C ≤ (opcField w).toNat := by
        simp only [imp_false] at *
        omega
      simp [hopc]
  · have hdec : decode w = .error .reservedNotZero := if_pos hrsv
    exact ⟨fun _ => ⟨.reservedNotZero, hrsv⟩, fun _ => ⟨_, hdec⟩⟩

/-- Settles O6, by the bullets of R63 as the decoder's refusals. -/
theorem illegalWordsRaiseCmdErr : Obligations.IllegalWordsRaiseCmdErr := by
  refine fun w => ⟨?_, fun s hb hw => ?_⟩
  · rw [legal_eq_false_iff, decode_eq_error_iff, exists_illegal_iff]
    simp only [Illegal.Holds, bField_high]
    exact Iff.rfl
  · obtain ⟨e, he⟩ := legal_eq_false_iff.1 hw
    exact handleCmd_illegal hb he

end Sys2Proof
end

section
/-! SUPPORT. The controller bytes of each command, and the statement about which bytes are sent (30_encoding.md R65 to R72). -/

namespace Sys2Proof.Machine

/-! ### The SetBus actions of bus writes -/

/-- The actions that drive a byte or a nibble of one. -/
def Action.isSetBus : Action → Bool
  | .setBus _ _ => true
  | .setE _ => false
  | .setBL _ => false
  | .setOE _ => false
  | .allLow => false
  | .wait _ => false

theorem isSetBus_eq : Action.isSetBus = fun a => match a with | .setBus _ _ => true | _ => false := by
  funext a
  cases a <;> rfl

/-- The SetBus actions of writing these bytes one after the other, each with its RS (40_bus_writer.md R77 to R80). -/
def setBusActions (width : Bool) (bytes : List (Byte × Bool)) : List Action :=
  bytes.flatMap fun b => (busWrite width b.1 b.2).filter Action.isSetBus

/-- The bytes a command sends where it is accepted in s, each with its RS (30_encoding.md R65 to R71). -/
def commandBytes (s : State) : Instr → List (Byte × Bool)
  | .init => [(fsSeed s.config, false), (dcSeed, false), (clearByte, false)]
  | .clear => [(clearByte, false)]
  | .home => [(homeByte, false)]
  | .cursorBlink on => [(setMaskBit dcBlink on s.masks.dc, false)]
  | .cursorVisible on => [(setMaskBit dcCursor on s.masks.dc, false)]
  | .displayOn on => [(setMaskBit dcDisplay on s.masks.dc, false)]
  | .moveLeft n => List.replicate n (moveLeftByte, false)
  | .setCursor row col => if s.acfg.inRange row col then [(setAddressByte row col, false)] else []
  | .printChar g => [(g, true)]
  | .backlight _ => []
  | .close => []

/-- The SetBus actions that INIT leaves pending. -/
theorem filter_isSetBus_begin {s : State} (hb : s.busy = false) :
    s.begin.pending.filter Action.isSetBus = setBusActions s.begin.acfg.width (commandBytes s .init) := by
  rw [pending_begin hb]
  simp [initActions, setBusActions, commandBytes, Action.isSetBus, MaskTable.seeded]

/-- The SetBus actions that another accepted command leaves pending. -/
theorem filter_isSetBus_acceptedState {s : State} (hb : s.busy = false) {i : Instr} (hi : i ≠ .init) :
    (acceptedState s i).pending.filter Action.isSetBus = setBusActions s.acfg.width (commandBytes s i) := by
  have hrep : s.repeatLeft = 0 := (idle_fields hb).2.2
  cases i
  case init => exact absurd rfl hi
  case clear | home | printChar g =>
    simp [acceptedState, pending_write hb, setBusActions, commandBytes, Action.isSetBus]
  case cursorBlink on | cursorVisible on | displayOn on =>
    simp [acceptedState, pending_toggle hb, setBusActions, commandBytes]
  case moveLeft n =>
    simp [acceptedState, pending_startMoves, setBusActions, commandBytes, List.filter_flatten, List.flatMap]
  case setCursor row col =>
    rcases h : s.acfg.inRange row col <;>
      simp [acceptedState, commandBytes, h, setBusActions, pending_write hb, (busy_eq_false_iff s).1 hb]
  case backlight on | close =>
    simp [acceptedState, pending_load, hrep, setBusActions, commandBytes, Action.isSetBus]

/-! ### The listed bytes -/

/-- The instruction bytes that R72 lists. -/
def ListedByte (p : Byte) : Prop :=
  p ∈ [0x01#8, 0x02#8, 0x10#8, 0x20#8, 0x24#8, 0x28#8, 0x30#8, 0x34#8, 0x38#8] ∨
  (0x08 ≤ p.toNat ∧ p.toNat ≤ 0x0F) ∨ (0x80 ≤ p.toNat ∧ p.toNat ≤ 0xA7) ∨ (0xC0 ≤ p.toNat ∧ p.toNat ≤ 0xE7)

/-- `CfgValid` bounds the geometry, and 5×11 dots go with one row (42_lifecycle.md R98). -/
theorem valid_bounds {c : CfgFields} (h : c.valid = true) :
    c.rows.toNat ≤ 2 ∧ c.cols.toNat ≤ 40 ∧ (c.font = true → c.rows = 1) := by
  simp only [CfgFields.valid, Bool.and_eq_true, Bool.or_eq_true, beq_iff_eq, decide_eq_true_eq, Bool.not_eq_true'] at h
  obtain ⟨⟨⟨hrows, -, hcols⟩, hfont⟩, -⟩ := h
  refine ⟨?_, hcols, fun hf => by simpa [hf] using hfont⟩
  rcases hrows with hr | hr <;> simp [hr]

/-- The function-set byte of a valid configuration is one of the six (30_encoding.md R68). -/
theorem listedByte_fsSeed {c : CfgFields} (h : c.valid = true) : ListedByte (fsSeed c) := by
  have six : ∀ width rows2 font : Bool, (font = true → rows2 = false) →
      (0x20 ||| (bitByte width <<< 4) ||| (bitByte rows2 <<< 3) ||| (bitByte font <<< 2) : Byte)
        ∈ [0x20#8, 0x24#8, 0x28#8, 0x30#8, 0x34#8, 0x38#8] := by decide
  obtain ⟨-, -, hfont⟩ := valid_bounds h
  have hmem := six c.width (c.rows == 2) c.font fun hf => by simp [hfont hf]
  exact .inl (List.mem_of_mem_drop (i := 3) hmem)

/-- Setting one of the three low bits keeps the five high bits (10_state.md R27). -/
theorem setMaskBit_and_high {k : Nat} (hk : k < 3) (on : Bool) (m : Byte) :
    setMaskBit k on m &&& 0xF8 = m &&& 0xF8 := by
  have hset : (1 : Byte) <<< k &&& 0xF8 = 0#8 ∧ ~~~((1 : Byte) <<< k) &&& 0xF8 = 0xF8 := by
    interval_cases k <;> decide
  cases on
  · show m &&& ~~~((1 : Byte) <<< k) &&& 0xF8 = _
    rw [BitVec.and_assoc, hset.2]
  · show (m ||| (1 : Byte) <<< k) &&& 0xF8 = _
    rw [BitVec.and_or_distrib_right, hset.1, BitVec.or_zero]

/-- A byte with the fixed bits of MASK.DC is a display-control byte, 0x08 to 0x0F (30_encoding.md R67). -/
theorem listedByte_of_dc {p : Byte} (h : p &&& 0xF8 = 0x08) : ListedByte p := by
  have hnum : p.toNat / 8 * 8 = 8 := by
    simpa [BitVec.toNat_eq] using (toNat_and_allOnes_shiftLeft p 3).symm.trans (congrArg BitVec.toNat h)
  exact .inr (.inl (by omega))

/-- The set-address byte does not wrap for two rows of 40 columns (30_encoding.md R70). -/
theorem setAddressByte_toNat {row col : Nat} (hrow : row < 2) (hcol : col < 40) :
    (setAddressByte row col).toNat = 0x80 + 0x40 * row + col := by
  have hlt : 0x40 * row + col < 2 ^ 7 := by omega
  calc (setAddressByte row col).toNat
      = 0x80 ||| (0x40 * row + col) := by
        rw [setAddressByte, BitVec.toNat_or, BitVec.toNat_ofNat, Nat.mod_eq_of_lt (by omega)]
        rfl
    _ = 0x80 + (0x40 * row + col) := (Nat.two_pow_add_eq_or_of_lt hlt 1).symm
    _ = 0x80 + 0x40 * row + col := (Nat.add_assoc _ _ _).symm

theorem listedByte_setAddressByte {c : CfgFields} (hc : c.valid = true) {row col : Nat} (h : c.inRange row col = true) :
    ListedByte (setAddressByte row col) := by
  obtain ⟨hrows, hcols, -⟩ := valid_bounds hc
  simp only [CfgFields.inRange, Bool.and_eq_true, decide_eq_true_eq] at h
  have hnum := setAddressByte_toNat (row := row) (col := col) (by omega) (by omega)
  unfold ListedByte
  omega

/-- What R72 allows a command to send: listed instruction bytes, and data writes only as PRINT_CHAR's operand. -/
def AllowedByte (i : Instr) (b : Byte × Bool) : Prop :=
  (b.2 = true → i = .printChar b.1) ∧ (b.2 = false → ListedByte b.1)

theorem allowedByte_instruction (i : Instr) {p : Byte} (h : ListedByte p) : AllowedByte i (p, false) :=
  ⟨fun hdata => (Bool.false_ne_true hdata).elim, fun _ => h⟩

theorem commandBytes_init_allowed {s : State} (hv : s.config.valid = true) :
    ∀ b ∈ commandBytes s .init, AllowedByte .init b := by
  have hdc : ListedByte dcSeed := listedByte_of_dc rfl
  have hclear : ListedByte clearByte := .inl (by decide)
  simp [commandBytes, allowedByte_instruction, listedByte_fsSeed hv, hdc, hclear]

/-- In a seeded state of the invariant every other command's bytes are allowed. -/
theorem commandBytes_allowed {s : State} (hinv : s.Inv) (hs : s.initState ≠ .unconfigured) {i : Instr} (hi : i ≠ .init) :
    ∀ b ∈ commandBytes s i, AllowedByte i b := by
  obtain ⟨hvalid, -, hdc, -, -⟩ := hinv.seeded hs
  have htoggle {k : Nat} (hk : k < 3) (on : Bool) : ListedByte (setMaskBit k on s.masks.dc) :=
    listedByte_of_dc ((setMaskBit_and_high hk on _).trans hdc)
  intro b hb
  cases i
  case init => exact absurd rfl hi
  case clear | home =>
    obtain rfl := List.mem_singleton.1 hb
    exact allowedByte_instruction _ (.inl (by decide))
  case cursorBlink on | cursorVisible on | displayOn on =>
    obtain rfl := List.mem_singleton.1 hb
    exact allowedByte_instruction _ (htoggle (by decide) on)
  case moveLeft n =>
    obtain rfl := List.eq_of_mem_replicate hb
    exact allowedByte_instruction _ (.inl (by decide))
  case setCursor row col =>
    rcases hr : s.acfg.inRange row col with _ | _
    · simp [commandBytes, hr] at hb
    · obtain rfl : b = (setAddressByte row col, false) := by simpa [commandBytes, hr] using hb
      exact allowedByte_instruction _ (listedByte_setAddressByte hvalid hr)
  case printChar g =>
    obtain rfl := List.mem_singleton.1 hb
    exact ⟨fun _ => rfl, fun hinstr => (Bool.true_eq_false_eq_False hinstr).elim⟩
  case backlight on | close => exact absurd hb List.not_mem_nil

/-- Every command leaves the SetBus actions of allowed bytes pending, and of none where it is not accepted. -/
theorem exec_sends_allowed {s t : State} {i : Instr} (hinv : s.Inv) (hb : s.busy = false) (h : exec i s = .next t) :
    ∃ bytes, t.pending.filter Action.isSetBus = setBusActions t.acfg.width bytes ∧ ∀ b ∈ bytes, AllowedByte i b := by
  rcases exec_cases i s with ⟨e, he⟩ | ⟨rfl, -, -, hv, -, he⟩ | ⟨hi, -, hs, he⟩ <;> rw [he] at h <;> cases h
  · have hidle : (s.raise e).pending = [] := (busy_eq_false_iff _).1 hb
    exact ⟨[], by rw [hidle]; rfl, by simp⟩
  · exact ⟨_, filter_isSetBus_begin hb, commandBytes_init_allowed hv⟩
  · obtain ⟨-, hacfg, -⟩ := acceptedState_frame s i
    rw [hacfg]
    exact ⟨_, filter_isSetBus_acceptedState hb hi, commandBytes_allowed hinv (by simp [hs]) hi⟩

/-- Settles O37, by the bytes of each command and the invariant's fixed bits and legal ACFG. -/
theorem onlyListedBytesAreSent : Obligations.OnlyListedBytesAreSent := by
  intro i s t hinv hb h
  obtain ⟨bytes, hsent, hallowed⟩ := exec_sends_allowed hinv hb h
  rw [setBusActions, isSetBus_eq] at hsent
  exact ⟨bytes, hsent, fun b hmem => (hallowed b hmem).1, fun b hmem => (hallowed b hmem).2⟩

end Sys2Proof.Machine
end

section
/-! SUPPORT. The two nibbles of a byte as numbers, and the statement about the serializer that is assembled from them
(40_bus_writer.md R77 to R81). -/

namespace Sys2Proof.Machine

/-! ### The nibbles of a byte -/

@[simp] theorem highNibble_toNat (p : Byte) : (highNibble p).toNat = p.toNat / 16 := by
  have hp : p.toNat < 256 := p.isLt
  simp only [highNibble, BitVec.toNat_setWidth, BitVec.extractLsb'_toNat, Nat.shiftRight_eq_div_pow]
  omega

@[simp] theorem lowNibble_toNat (p : Byte) : (lowNibble p).toNat = p.toNat % 16 := by
  simp only [lowNibble, BitVec.toNat_setWidth, BitVec.extractLsb'_toNat, Nat.shiftRight_zero]
  omega

/-! ### The serializer by width -/

theorem busWrite_eightBit (p : Byte) (sel : Bool) : busWrite true p sel = transfer sel p := rfl

theorem busWrite_fourBit (p : Byte) (sel : Bool) :
    busWrite false p sel = transfer sel (highNibble p) ++ transfer sel (lowNibble p) := rfl

/-! ### The obligation -/

/-- Settles O35: the bytes of the two transfers in 4-bit width are the high and the low nibble. -/
theorem busWriteSerializes : Obligations.BusWriteSerializes := by
  intro p sel
  refine ⟨?eightBit, highNibble p, lowNibble p, highNibble_toNat p, lowNibble_toNat p, ?fourBit⟩
  case eightBit => simp only [busWrite_eightBit, transfer, pulse]
  case fourBit => simp only [busWrite_fourBit, transfer, pulse, List.cons_append, List.nil_append]

end Sys2Proof.Machine
end

section
/-! SUPPORT. The CMD write of a command's word, accepted or rejected: which words of an opcode are legal, and that a command's own
word decodes to it (30_encoding.md R58 to R63, R73; 60_exceptions.md R114). -/

namespace Sys2Proof

open Machine

/-! ### The legal words of an opcode -/

/-- A field of a word is not 0 where the number at its place is not. -/
theorem extractLsb'_ne_zero_iff {n : Nat} (x : BitVec n) (k m : Nat) :
    x.extractLsb' k m ≠ 0#m ↔ x.toNat / 2 ^ k % 2 ^ m ≠ 0 := by
  rw [Ne, BitVec.toNat_eq, BitVec.extractLsb'_toNat, Nat.shiftRight_eq_div_pow, BitVec.toNat_ofNat, Nat.zero_mod]

/-- With the opcode of a command, the bullets of 30_encoding.md R63 that can hold are RSV ≠ 0 and a bit of A or B above the
operands. -/
theorem illegal_holds_iff_of_opcode {w : Word} {i : Instr} (hopc : opcField w = opcodeOf i) :
    (∃ e : Illegal, e.Holds w) ↔
      w.toNat / 2 ^ 16 % 256 ≠ 0 ∨ w.toNat / 2 ^ operandBits i % 2 ^ (16 - operandBits i) ≠ 0 := by
  rw [exists_illegal_iff]
  cases i <;>
    simp only [Illegal.Holds, hopc, opcodeOf, operandBits, ne_eq, BitVec.toNat_eq, rsvField_toNat, aField_toNat,
      bField_toNat, bField_high_toNat, BitVec.reduceToNat, true_or, or_true, and_true, not_true_eq_false,
      and_false, false_or] <;>
    omega

/-- A word with a command's opcode is illegal exactly where a bit between the opcode and the operands is not 0 (30_encoding.md
R61, R63). -/
theorem decode_eq_error_iff_of_opcode {w : Word} {i : Instr} (hopc : opcField w = opcodeOf i) :
    (∃ e, decode w = .error e) ↔ w.extractLsb' (operandBits i) (24 - operandBits i) ≠ 0#_ := by
  rw [decode_eq_error_iff, illegal_holds_iff_of_opcode hopc, extractLsb'_ne_zero_iff]
  have hbits : operandBits i = 0 ∨ operandBits i = 1 ∨ operandBits i = 8 ∨ operandBits i = 16 := by
    cases i <;> simp [operandBits]
  rcases hbits with h | h | h | h <;> rw [h] <;> omega

/-! ### The words that are not accepted -/

/-- The STATE a command needs is known from its opcode: INIT's is UNCONFIGURED, every other's READY (60_exceptions.md R111). -/
theorem allowedState_eq (i : Instr) : allowedState i = if opcodeOf i = 0x01 then .unconfigured else .ready := by
  cases i <;> rfl

/-- What a CMD write does where a word with a command's opcode is not accepted: BUSY, then the word's bits, then STATE. -/
theorem rejectsCommand (s : State) {v : Word} {i : Instr} (hopc : opcField v = opcodeOf i) :
    s.RejectsCommand v (v.extractLsb' (operandBits i) (24 - operandBits i) = 0#_) (allowedState i) where
  busy hb := handleCmd_busy hb v
  illegal hb hv := by
    obtain ⟨e, he⟩ := (decode_eq_error_iff_of_opcode hopc).2 hv
    exact handleCmd_illegal hb he
  state hb hv hs := by
    rcases hdec : decode v with e | j
    · exact absurd hv ((decode_eq_error_iff_of_opcode hopc).1 ⟨e, hdec⟩)
    · obtain ⟨-, hj, -⟩ := decode_eq_ok_iff.1 hdec
      have hallowed : allowedState j = allowedState i := by rw [allowedState_eq, allowedState_eq, ← hj, ← hopc]
      rw [handleCmd_legal s hdec]
      exact exec_wrongState hb (hallowed ▸ hs)

/-- The same where the command has no operands: its one word is its opcode over 0. -/
theorem rejectsCommand_of_noOperand (s : State) {v : Word} {i : Instr} (hopc : opcField v = opcodeOf i)
    (hbits : operandBits i = 0) : s.RejectsCommand v (v = opcodeOf i ++ 0#24) (allowedState i) := by
  have hlegal : v = opcodeOf i ++ 0#24 ↔ v.extractLsb' (operandBits i) (24 - operandBits i) = 0#_ := by
    have hnum := congrArg BitVec.toNat hopc
    rw [opcField_toNat] at hnum
    rw [hbits, BitVec.toNat_eq, BitVec.toNat_eq, append_toNat, BitVec.extractLsb'_toNat, Nat.shiftRight_zero,
      BitVec.toNat_ofNat]
    omega
  rw [propext hlegal]
  exact rejectsCommand s hopc

/-! ### The word of a command -/

/-- A well-formed command's word decodes to the command (30_encoding.md R61, R73). -/
theorem decode_encode {i : Instr} (hi : i.WellFormed = true) : decode (encode i) = .ok i := by
  cases i
  case init | clear | home | close => decide
  case cursorBlink on | cursorVisible on | displayOn on | backlight on => cases on <;> decide
  case moveLeft n =>
    have hn : n ≤ 255 := of_decide_eq_true hi
    have hmod : n = n % 256 := by omega
    simpa [decode_eq_ok_iff, encode, opcodeOf, Instr.OperandsIn] using hmod
  case setCursor row col =>
    obtain ⟨hrow, hcol⟩ : row ≤ 255 ∧ col ≤ 255 := by simpa [Instr.WellFormed] using hi
    have hmod : row = row % 256 ∧ col = col % 256 := by omega
    simpa [decode_eq_ok_iff, encode, opcodeOf, Instr.OperandsIn] using hmod
  case printChar g => simp [decode_eq_ok_iff, encode, opcodeOf, Instr.OperandsIn]

/-- The CMD write of a well-formed command's word is the command. -/
theorem handleCmd_encode (s : State) {i : Instr} (hi : i.WellFormed = true) : s.handleCmd (encode i) = exec i s :=
  handleCmd_legal s (decode_encode hi)

/-! ### The words as the table of 30_encoding.md R73 writes them -/

/-- The fields of a command word in their places (30_encoding.md R58). -/
theorem commandWord_eq_or (opc a b : Byte) :
    commandWord opc a b = (opc.setWidth 32 <<< 24) ||| (a.setWidth 32 <<< 8) ||| b.setWidth 32 := by
  simpa [commandWord] using BitVec.setWidth_append_append_append_eq_shiftLeft_setWidth_or
    (b := opc) (b' := (0 : Byte)) (b'' := a) (b''' := b) (w'''' := 32)

theorem encode_clear : encode .clear = 0x02000000 := rfl

theorem encode_home : encode .home = 0x03000000 := rfl

theorem encode_cursorBlink (on : Bool) : encode (.cursorBlink on) = if on then 0x04000001 else 0x04000000 := by
  cases on <;> rfl

theorem encode_cursorVisible (on : Bool) : encode (.cursorVisible on) = if on then 0x05000001 else 0x05000000 := by
  cases on <;> rfl

theorem encode_displayOn (on : Bool) : encode (.displayOn on) = if on then 0x06000001 else 0x06000000 := by
  cases on <;> rfl

theorem encode_backlight (on : Bool) : encode (.backlight on) = if on then 0x0A000001 else 0x0A000000 := by
  cases on <;> rfl

theorem encode_moveLeft {n : Nat} (hn : n ≤ 255) : encode (.moveLeft n) = 0x07000000#32 ||| BitVec.ofNat 32 n := by
  have hwide := BitVec.setWidth_ofNat_of_le_of_lt (w := 8) (v := 32) (x := n) (by decide) (by omega)
  simp [encode, commandWord_eq_or, hwide]

theorem encode_setCursor {row col : Nat} (hrow : row ≤ 255) (hcol : col ≤ 255) :
    encode (.setCursor row col) = 0x08000000#32 ||| (BitVec.ofNat 32 row <<< 8) ||| BitVec.ofNat 32 col := by
  have hwide {n : Nat} (hn : n ≤ 255) :=
    BitVec.setWidth_ofNat_of_le_of_lt (w := 8) (v := 32) (x := n) (by decide) (by omega)
  simp [encode, commandWord_eq_or, hwide hrow, hwide hcol]

theorem encode_printChar (g : Byte) : encode (.printChar g) = 0x09000000#32 ||| BitVec.ofNat 32 g.toNat := by
  simp [encode, commandWord_eq_or]

end Sys2Proof
end

section
/-! SUPPORT. What an accepted runtime command leaves of the state, and the statements about the runtime commands that are assembled
from it (41_protocol_ops.md R87 to R96). -/

namespace Sys2Proof.Machine

/-! ### The frame of the sequencer's operations -/

theorem sameButSequencer_load (acts : List Action) (s : State) : s.SameButSequencer (s.load acts) := by
  constructor <;> simp

theorem sameButSequencer_write (p : Byte) (sel : Bool) (more : List Action) (s : State) :
    s.SameButSequencer (s.write p sel more) := sameButSequencer_load _ s

theorem sameButSequencer_startMoves (n : Nat) (s : State) : s.SameButSequencer (s.startMoves n) := by
  constructor <;> simp

/-- A toggle changes MASK.DC and the sequencer's own state, and nothing else. -/
theorem sameButSequencer_toggle (k : Nat) (on : Bool) (s : State) :
    ({ s with masks := { s.masks with dc := setMaskBit k on s.masks.dc } } : State).SameButSequencer (s.toggle k on) :=
  sameButSequencer_write _ _ _ _

/-! ### The updated display-control byte -/

/-- Bit k of the updated byte is `on`, and every other bit is as it was (10_state.md R27). -/
theorem setMaskBit_getLsbD {k : Nat} (hk : k < 8) (on : Bool) (m : Byte) (j : Nat) :
    (setMaskBit k on m).getLsbD j = if j = k then on else m.getLsbD j := by
  have hbit : 1#8 <<< k = BitVec.twoPow 8 k := (BitVec.twoPow_eq 8 k).symm
  have hbound : m.getLsbD j = true → j < 8 := BitVec.lt_of_getLsbD
  by_cases hj : j = k
  · cases on <;> simp [setMaskBit, hbit, hj, hk]
  · cases on
    · simpa [setMaskBit, hbit, hj, Ne.symm hj] using hbound
    · simp [setMaskBit, hbit, BitVec.getLsbD_twoPow, hj, Ne.symm hj]

/-! ### An accepted command -/

/-- In READY with BUSY = 0 a command other than INIT has its own effect, whether it is taken by itself or as its word. -/
theorem exec_and_word_accept {s : State} (hb : s.busy = false) (hs : s.initState = .ready) {i : Instr} (hi : i ≠ .init)
    (hwf : i.WellFormed = true) {w : Word} (hw : encode i = w) :
    exec i s = .next (acceptedState s i) ∧ s.handleCmd w = .next (acceptedState s i) := by
  have hexec := exec_accept hb hs hi
  exact ⟨hexec, hw ▸ (handleCmd_encode s hwf).trans hexec⟩

/-- From an idle sequencer a loaded list is all that is pending. -/
theorem pending_load_of_idle {s : State} (hb : s.busy = false) (acts : List Action) : (s.load acts).pending = acts := by
  obtain ⟨-, -, hrep⟩ := idle_fields hb
  simp [pending_load, hrep]

/-- BUSY is 1 exactly where there is a move to make (41_protocol_ops.md R93). -/
theorem startMoves_busy (n : Nat) (s : State) : (s.startMoves n).busy = decide (n ≠ 0) := by
  rw [busy_eq_pending, pending_startMoves]
  cases n <;> simp [List.replicate_succ, busWrite_ne_nil]

/-- BUSY after an action completes is 0 exactly where nothing was left to start. -/
theorem complete_busy_eq_false_iff (a : Action) (s : State) :
    (s.complete a).busy = false ↔ s.queue = [] ∧ s.repeatLeft = 0 := by
  simp [State.complete, advance_busy_eq_false_iff]

/-- A command of one action that is no wait: the cycle after its CMD write carries the action out, and the command has ended
(10_state.md R38). -/
theorem step_load_single {s : State} (hb : s.busy = false) {a : Action} (ha : a.waitLoad = 0)
    (hr : (s.load [a]).pins.rstN = true) :
    ∃ u, step (s.load [a]) = .next u ∧ u.pads = a.apply s.pads ∧ u.busy = false := by
  have hbusy : (s.load [a]).busy = true := rfl
  have hseq : (s.load [a]).seqCycle = (s.load [a]).complete a := by simp [State.seqCycle, ha]
  refine ⟨_, step_busy hr hbusy, ?_, ?_⟩
  · simp [hseq]
  · obtain ⟨-, -, hrep⟩ := idle_fields hb
    have hdone := (complete_busy_eq_false_iff a (s.load [a])).2 ⟨rfl, hrep⟩
    rwa [← hseq] at hdone

/-- A write with nothing after it is all that is pending. -/
theorem pending_write_nil {s : State} (hb : s.busy = false) (p : Byte) (sel : Bool) :
    (s.write p sel []).pending = busWrite s.acfg.width p sel := by
  rw [pending_write hb, List.append_nil]

/-- What the three toggles share: bit k of MASK.DC is set to `on`, and the updated byte is sent (41_protocol_ops.md R90 to R92). -/
theorem toggle_sets_bit_and_sends {s : State} (hb : s.busy = false) {k : Nat} (hk : k < 8) (on : Bool) :
    (setMaskBit k on s.masks.dc).getLsbD k = on ∧
    (∀ j, j ≠ k → (setMaskBit k on s.masks.dc).getLsbD j = s.masks.dc.getLsbD j) ∧
    (s.toggle k on).pending = busWrite s.acfg.width (setMaskBit k on s.masks.dc) false ∧
    ({ s with masks := { s.masks with dc := setMaskBit k on s.masks.dc } } : State).SameButSequencer (s.toggle k on) :=
  ⟨by simp [setMaskBit_getLsbD hk], fun j hj => by simp [setMaskBit_getLsbD hk, hj], pending_toggle hb k on,
    sameButSequencer_toggle k on s⟩

/-! ### The obligations -/

/-- Settles O21: CLEAR is one write and then the long settle. -/
theorem clearCommand : Obligations.ClearCommand := by
  refine fun s => ⟨fun v hopc => rejectsCommand_of_noOperand s (i := .clear) hopc rfl, fun hb hs => ?_⟩
  obtain ⟨hexec, hword⟩ := exec_and_word_accept (i := .clear) hb hs nofun rfl encode_clear
  exact ⟨_, hexec, hword, pending_write hb _ _ _, sameButSequencer_write _ _ _ s⟩

/-- Settles O22: HOME is one write with nothing after it. -/
theorem homeCommand : Obligations.HomeCommand := by
  refine fun s => ⟨fun v hopc => rejectsCommand_of_noOperand s (i := .home) hopc rfl, fun hb hs => ?_⟩
  obtain ⟨hexec, hword⟩ := exec_and_word_accept (i := .home) hb hs nofun rfl encode_home
  exact ⟨_, hexec, hword, pending_write_nil hb _ _, sameButSequencer_write _ _ _ s⟩

/-- Settles O23: CURSOR_BLINK is the toggle of bit 0. -/
theorem cursorBlinkCommand : Obligations.CursorBlinkCommand := by
  refine fun s => ⟨fun v hopc => rejectsCommand s (i := .cursorBlink true) hopc, fun on hb hs => ?_⟩
  obtain ⟨hexec, hword⟩ := exec_and_word_accept (i := .cursorBlink on) hb hs nofun rfl (encode_cursorBlink on)
  exact ⟨_, _, hexec, hword, toggle_sets_bit_and_sends hb (by decide) on⟩

/-- Settles O24: CURSOR_VISIBLE is the toggle of bit 1. -/
theorem cursorVisibleCommand : Obligations.CursorVisibleCommand := by
  refine fun s => ⟨fun v hopc => rejectsCommand s (i := .cursorVisible true) hopc, fun on hb hs => ?_⟩
  obtain ⟨hexec, hword⟩ := exec_and_word_accept (i := .cursorVisible on) hb hs nofun rfl (encode_cursorVisible on)
  exact ⟨_, _, hexec, hword, toggle_sets_bit_and_sends hb (by decide) on⟩

/-- Settles O25: DISPLAY_ON is the toggle of bit 2. -/
theorem displayOnCommand : Obligations.DisplayOnCommand := by
  refine fun s => ⟨fun v hopc => rejectsCommand s (i := .displayOn true) hopc, fun on hb hs => ?_⟩
  obtain ⟨hexec, hword⟩ := exec_and_word_accept (i := .displayOn on) hb hs nofun rfl (encode_displayOn on)
  exact ⟨_, _, hexec, hword, toggle_sets_bit_and_sends hb (by decide) on⟩

/-- Settles O26: MOVE_LEFT starts n writes, and with n = 0 none. -/
theorem moveLeftCommand : Obligations.MoveLeftCommand := by
  refine fun s => ⟨fun v hopc => rejectsCommand s (i := .moveLeft 0) hopc, fun n hn hb hs => ?_⟩
  obtain ⟨hexec, hword⟩ := exec_and_word_accept (i := .moveLeft n) hb hs nofun (decide_eq_true hn) (encode_moveLeft hn)
  exact ⟨_, hexec, hword, pending_startMoves n s, startMoves_busy n s, sameButSequencer_startMoves n s⟩

/-- Settles O27: SET_CURSOR is one write where the position is in range, and nothing where it is not. -/
theorem setCursorCommand : Obligations.SetCursorCommand := by
  refine fun s => ⟨fun v hopc => rejectsCommand s (i := .setCursor 0 0) hopc, fun row col hrow hcol hb hs => ?_⟩
  have hwf : (Instr.setCursor row col).WellFormed = true := by simp [Instr.WellFormed, hrow, hcol]
  obtain ⟨hexec, hword⟩ := exec_and_word_accept (i := .setCursor row col) hb hs nofun hwf (encode_setCursor hrow hcol)
  refine ⟨_, hexec, hword, fun hr hc => ?_, fun hout => ?_⟩
  · have hin : s.acfg.inRange row col = true := by simp [CfgFields.inRange, hr, hc]
    simp only [acceptedState, hin, if_true]
    exact ⟨pending_write_nil hb _ _, sameButSequencer_write _ _ _ s⟩
  · have hin : s.acfg.inRange row col = false := by simpa [CfgFields.inRange, imp_iff_not_or] using hout
    simp [acceptedState, hin]

/-- Settles O28: PRINT_CHAR is one data write of its operand. -/
theorem printCharCommand : Obligations.PrintCharCommand := by
  refine fun s => ⟨fun v hopc => rejectsCommand s (i := .printChar 0) hopc, fun g hb hs => ?_⟩
  obtain ⟨hexec, hword⟩ := exec_and_word_accept (i := .printChar g) hb hs nofun rfl (encode_printChar g)
  exact ⟨_, hexec, hword, pending_write_nil hb _ _, sameButSequencer_write _ _ _ s⟩

/-- Settles O29: BACKLIGHT is one SetBL, which the next cycle carries out. -/
theorem backlightCommand : Obligations.BacklightCommand := by
  refine fun s => ⟨fun v hopc => rejectsCommand s (i := .backlight true) hopc, fun on hb hs => ?_⟩
  obtain ⟨hexec, hword⟩ := exec_and_word_accept (i := .backlight on) hb hs nofun rfl (encode_backlight on)
  refine ⟨_, hexec, hword, pending_load_of_idle hb [.setBL on], rfl, sameButSequencer_load [.setBL on] s, fun hr => ?_⟩
  exact step_load_single hb rfl hr

end Sys2Proof.Machine
end

section
/-! SUPPORT. What can change the mask table, in a command, an access and a whole cycle, and the statement about it (10_state.md R25
to R31, 41_protocol_ops.md R97). -/

namespace Sys2Proof.Machine

/-! ### The toggles -/

/-- The command sets bit k of MASK.DC to `on` (41_protocol_ops.md R90 to R92). -/
def Toggles (i : Instr) (k : Nat) (on : Bool) : Prop :=
  (i = .cursorBlink on ∧ k = 0) ∨ (i = .cursorVisible on ∧ k = 1) ∨ (i = .displayOn on ∧ k = 2)

theorem toggles_lt {i : Instr} {k : Nat} {on : Bool} (h : Toggles i k on) : k < 8 := by
  rcases h with ⟨-, rfl⟩ | ⟨-, rfl⟩ | ⟨-, rfl⟩ <;> decide

/-- An accepted command leaves the mask table, or is a toggle and sets its bit of MASK.DC. -/
theorem acceptedState_masks (s : State) (i : Instr) :
    (acceptedState s i).masks = s.masks ∨
    ∃ k on, Toggles i k on ∧ (acceptedState s i).masks = { s.masks with dc := setMaskBit k on s.masks.dc } := by
  cases i with
  | cursorBlink on => exact .inr ⟨0, on, .inl ⟨rfl, rfl⟩, State.toggle_masks _ _ _⟩
  | cursorVisible on => exact .inr ⟨1, on, .inr (.inl ⟨rfl, rfl⟩), State.toggle_masks _ _ _⟩
  | displayOn on => exact .inr ⟨2, on, .inr (.inr ⟨rfl, rfl⟩), State.toggle_masks _ _ _⟩
  | setCursor row col => exact .inl (by simp only [acceptedState]; split <;> simp)
  | _ => exact .inl (by simp [acceptedState])

/-- A toggle's word is the match of its row, and its bit 0 is `on` (30_encoding.md R61). -/
theorem toggle_word {w : Word} {i : Instr} {k : Nat} {on : Bool} (hw : decode w = .ok i) (h : Toggles i k on) :
    ((w &&& 0xFFFFFFFE = 0x04000000 ∧ k = 0) ∨ (w &&& 0xFFFFFFFE = 0x05000000 ∧ k = 1) ∨
      (w &&& 0xFFFFFFFE = 0x06000000 ∧ k = 2)) ∧ on = w.getLsbD 0 := by
  obtain ⟨hmatch, hon⟩ := decode_eq_ok_iff_match.1 hw
  rcases h with ⟨rfl, rfl⟩ | ⟨rfl, rfl⟩ | ⟨rfl, rfl⟩
  · exact ⟨.inl ⟨hmatch, rfl⟩, hon⟩
  · exact ⟨.inr (.inl ⟨hmatch, rfl⟩), hon⟩
  · exact ⟨.inr (.inr ⟨hmatch, rfl⟩), hon⟩

/-! ### The masks through a command and an access -/

/-- Whatever a command other than INIT does, ACFG is left, and the mask table is left or an accepted toggle sets its bit. -/
theorem exec_acfg_masks {i : Instr} (hi : i ≠ .init) {s t : State} (h : exec i s = .next t) :
    t.acfg = s.acfg ∧
    (t.masks = s.masks ∨ ∃ k on, Toggles i k on ∧ t.masks = { s.masks with dc := setMaskBit k on s.masks.dc }) := by
  rcases exec_cases i s with ⟨e, he⟩ | ⟨rfl, -⟩ | ⟨-, -, -, he⟩
  · rw [he] at h
    cases h
    exact ⟨rfl, .inl rfl⟩
  · exact absurd rfl hi
  · rw [he] at h
    cases h
    obtain ⟨-, hacfg, -⟩ := acceptedState_frame s i
    exact ⟨hacfg, acceptedState_masks s i⟩

/-- An accepted toggle is written to CMD in this cycle, and sets bit k of MASK.DC to `on`. -/
def State.WritesToggle (s : State) (k : Nat) (on : Bool) : Prop :=
  s.pins.hwe = true ∧ s.pins.haddr = 0 ∧ s.busy = false ∧ s.initState = .ready ∧
    ∃ i, decode s.pins.hwdata = .ok i ∧ Toggles i k on

/-- An access leaves the mask table, begins INIT, or writes an accepted toggle. -/
theorem access_masks {s u : State} (h : s.access = .next u) :
    u.masks = s.masks ∨
    (s.busy = false ∧ s.initState = .unconfigured ∧ s.WritesInit ∧ u.masks = .seeded s.config) ∨
    ∃ k on, s.WritesToggle k on ∧ u.masks = { s.masks with dc := setMaskBit k on s.masks.dc } := by
  rcases access_cases s with ⟨hwe, hreg, ha⟩ | ⟨-, -, ha⟩ | ⟨-, -, ha⟩ | ha
  · have haddr : s.pins.haddr = 0 := (ofIndex_iff _).1.1 hreg
    rcases handleCmd_cases s.pins.hwdata s with ⟨e, hc⟩ | ⟨hb, hu, hvalid, hok, hdec, hc⟩ | ⟨i, -, hdec, hb, hs, hc⟩ <;>
      rw [ha, hc] at h <;> cases h
    · exact .inl rfl
    · exact .inr (.inl ⟨hb, hu, ⟨hwe, haddr, decode_eq_init_iff.1 hdec, hvalid, hok⟩, State.begin_masks s⟩)
    · obtain hkeep | ⟨k, on, htog, hmasks⟩ := acceptedState_masks s i
      · exact .inl hkeep
      · exact .inr (.inr ⟨k, on, ⟨hwe, haddr, hb, hs, i, hdec, htog⟩, hmasks⟩)
  all_goals
    rw [ha] at h
    cases h
    exact .inl rfl

/-! ### The obligation -/

/-- Settles O33: a command leaves all masks but a toggle's bit, and a step's three kinds of cycle are reset, the sequencer's cycle
and an idle block's access. -/
theorem runtimeCommandsKeepMasks : Obligations.RuntimeCommandsKeepMasks := by
  refine ⟨fun i s t hinit _ h => ?_, fun s t hstep hne => ?_⟩
  · obtain ⟨hacfg, hkeep | ⟨k, on, htog, hmasks⟩⟩ := exec_acfg_masks hinit h
    · exact ⟨by rw [hkeep], by rw [hkeep], by rw [hkeep], hacfg, fun _ _ _ _ => by rw [hkeep]⟩
    · refine ⟨by rw [hmasks], by rw [hmasks], by rw [hmasks], hacfg, fun j hblink hcursor hdisplay => ?_⟩
      have hj : j ≠ k := by
        rcases htog with ⟨rfl, rfl⟩ | ⟨rfl, rfl⟩ | ⟨rfl, rfl⟩
        · exact hblink on rfl
        · exact hcursor on rfl
        · exact hdisplay on rfl
      simp [hmasks, setMaskBit_getLsbD (toggles_lt htog), hj]
  · rcases step_cases_by_busy hstep with ⟨hr, rfl⟩ | ⟨hr, hb, rfl⟩ | ⟨hr, hb, u, hu, rfl⟩
    · exact .inl ⟨hr, rfl⟩
    · obtain ⟨hkeep, -⟩ | ⟨hc, hmasks, -⟩ := seqCycle_masks_acfg s
      · exact absurd hkeep hne
      · exact .inr (.inl ⟨hr, hc, hmasks⟩)
    · obtain hkeep | ⟨-, hs, ⟨hwe, haddr, hdata, hvalid, hok⟩, hmasks⟩ |
        ⟨k, on, ⟨hwe, haddr, -, hs, i, hdec, htog⟩, hmasks⟩ := access_masks hu
      · exact absurd hkeep hne
      · exact .inr (.inr (.inl ⟨hr, hwe, haddr, hdata, hb, hs, hvalid, hok, hmasks⟩))
      · obtain ⟨hword, hon⟩ := toggle_word hdec htog
        have hbit := setMaskBit_getLsbD (toggles_lt htog) on s.masks.dc
        refine .inr (.inr (.inr ⟨hr, hwe, haddr, hb, hs, k, hword, ?_, ?_, fun j hj => ?_⟩))
        · simp [hmasks]
        · rw [← hon]
          simp [hmasks, hbit]
        · simp [hmasks, hbit, hj]

end Sys2Proof.Machine
end

section
/-! SUPPORT. INIT as it begins and CLOSE as it completes, and the statements about them (42_lifecycle.md R99 to R103). -/

namespace Sys2Proof.Machine

/-! ### Their words -/

theorem encode_init : encode .init = 0x01000000 := rfl

theorem encode_close : encode .close = 0x0B000000 := rfl

/-! ### INIT -/

/-- The function-set byte is a sum: its bits do not overlap (10_state.md R29). -/
theorem fsSeed_eq_add (c : CfgFields) :
    fsSeed c = 0x20#8 + (if c.width then 0x10#8 else 0#8) + (if c.rows = 2 then 0x08#8 else 0#8)
      + (if c.font then 0x04#8 else 0#8) := by
  have bits : ∀ width rows2 font : Bool,
      (0x20 ||| (bitByte width <<< 4) ||| (bitByte rows2 <<< 3) ||| (bitByte font <<< 2) : Byte)
        = 0x20#8 + (if width then 0x10#8 else 0#8) + (if rows2 then 0x08#8 else 0#8)
          + (if font then 0x04#8 else 0#8) := by decide
  simpa [fsSeed] using bits c.width (c.rows == 2) c.font

/-- In an idle UNCONFIGURED block whose two checks pass, INIT begins, whether it is taken by itself or as its word. -/
theorem init_and_word_begin {s : State} (hb : s.busy = false) (hs : s.initState = .unconfigured)
    (hvalid : s.config.valid = true) (hok : s.pinctlOk = true) :
    exec .init s = .next s.begin ∧ s.handleCmd 0x01000000 = .next s.begin := by
  have hexec : exec .init s = .next s.begin := by simp [exec_init hb hs, hvalid, hok]
  exact ⟨hexec, encode_init ▸ (handleCmd_encode s rfl).trans hexec⟩

/-- Beside the sequencer's own state, INIT latches ACFG, seeds the masks and goes INITIALIZING, and changes nothing else. -/
theorem sameButSequencer_begin (s : State) :
    ({ s with acfg := s.config, masks := .seeded s.config, initState := .initializing } : State).SameButSequencer s.begin :=
  sameButSequencer_load (initActions s.config.width (.seeded s.config)) _

/-! ### CLOSE -/

/-- The cycle after an accepted CLOSE carries AllLow out and tears the block down, and the command has ended (42_lifecycle.md
R103). -/
theorem step_load_allLow {s : State} (hb : s.busy = false) (hr : (s.load [.allLow]).pins.rstN = true) :
    ∃ u, step (s.load [.allLow]) = .next u ∧ u.busy = false ∧ u.initState = .unconfigured ∧
      u.pads = Action.allLow.apply s.pads ∧ u.masks = .unseeded ∧ u.acfg = .zero := by
  obtain ⟨u, hstep, hpads, hbusy⟩ := step_load_single hb rfl hr
  have hseq : (s.load [.allLow]).seqCycle = (s.load [.allLow]).complete .allLow := rfl
  have hu := hstep
  rw [step_busy hr rfl] at hu
  cases hu
  refine ⟨_, hstep, hbusy, ?_, hpads, ?_, ?_⟩
  · simp [hseq, complete_initState]
  · simp [hseq, State.complete]
  · simp [hseq, State.complete]

/-- Between two commands a configured block drives its pads (10_state.md R33). -/
theorem oe_of_ready_idle {s : State} (hinv : s.Inv) (hb : s.busy = false) (hs : s.initState = .ready) :
    s.pads.oe = true := by
  obtain ⟨hcurrent, -, -⟩ := idle_fields hb
  exact (hinv.driven (by simp [hs])).resolve_right (by simp [hcurrent])

/-- Once AllLow is carried out on driven pads, every pad drives 0 (42_lifecycle.md R103). -/
theorem level_apply_allLow {p : Pads} (hoe : p.oe = true) (q : Pad) : (Action.allLow.apply p).level q = .driven false := by
  have hlow : (Action.allLow.apply p).Low := ⟨rfl, rfl, rfl, rfl⟩
  have hdriven : (Action.allLow.apply p).oe = true := hoe
  rw [level_driven hdriven, latch_of_low hlow]

/-! ### The obligations -/

/-- Settles O30: CLOSE is one AllLow, whose completion in the next cycle is the teardown. -/
theorem closeCommand : Obligations.CloseCommand := by
  refine fun s => ⟨fun v hopc => rejectsCommand_of_noOperand s (i := .close) hopc rfl, fun hb hs => ?_⟩
  obtain ⟨hexec, hword⟩ := exec_and_word_accept (i := .close) hb hs nofun rfl encode_close
  refine ⟨_, hexec, hword, pending_load_of_idle hb [.allLow], rfl, sameButSequencer_load [.allLow] s, fun hr => ?_⟩
  obtain ⟨u, hstep, hbusy, hstate, hpads, hmasks, hacfg⟩ := step_load_allLow hb hr
  refine ⟨u, hstep, hbusy, hstate, hpads, fun hinv => ?_, hmasks, hacfg⟩
  have hoe := oe_of_ready_idle hinv hb hs
  exact ⟨hoe, fun q => hpads ▸ level_apply_allLow hoe q⟩

/-- Settles O31: INIT whose checks pass begins the init sequence, seeded from CONFIG. -/
theorem initCommandBegins : Obligations.InitCommandBegins := by
  refine fun s => ⟨fun v hopc => rejectsCommand_of_noOperand s (i := .init) hopc rfl, fun hb hs hvalid hok => ?_⟩
  obtain ⟨hexec, hword⟩ := init_and_word_begin hb hs hvalid hok
  exact ⟨_, fsSeed s.config, hexec, hword, fsSeed_eq_add s.config, pending_begin hb, sameButSequencer_begin s⟩

end Sys2Proof.Machine
end

section
/-! SUPPORT. What raises each error, what a command that raises none leaves of the error bits, and the statements about the errors
that are assembled from it (60_exceptions.md R107 to R112). -/

namespace Sys2Proof.Machine

/-! ### STATE and the commands it allows -/

/-- Every command but INIT is allowed in READY only (60_exceptions.md R111). -/
theorem allowedState_of_ne_init {i : Instr} (hi : i ≠ .init) : allowedState i = .ready := by
  cases i with
  | init => exact absurd rfl hi
  | _ => rfl

/-- An accepted command sets and clears no error bit. -/
theorem acceptedState_errors (s : State) (i : Instr) : (acceptedState s i).errors = s.errors := by
  cases i with
  | setCursor row col => simp only [acceptedState]; split <;> simp
  | _ => simp [acceptedState]

/-- In a STATE that allows it, a command leaves STERR: INIT may still set CFGERR or RESERR, the others set nothing. -/
theorem exec_keeps_stErr_of_allowed {s : State} (hb : s.busy = false) {i : Instr} (ha : s.initState = allowedState i) :
    ∃ t, exec i s = .next t ∧ t.errors.stErr = s.errors.stErr := by
  by_cases hi : i = .init
  · subst hi
    refine ⟨_, exec_init hb ha, ?_⟩
    split
    · rfl
    · split <;> simp [Errors.set]
  · refine ⟨_, exec_accept hb (ha.trans (allowedState_of_ne_init hi)) hi, ?_⟩
    rw [acceptedState_errors]

/-! ### The checks of INIT -/

/-- A valid configuration in numbers (42_lifecycle.md R98). -/
theorem valid_eq_true_iff (c : CfgFields) :
    c.valid = true ↔
      (c.rows.toNat = 1 ∨ c.rows.toNat = 2) ∧ (1 ≤ c.cols.toNat ∧ c.cols.toNat ≤ 40) ∧
      (c.font = false ∨ c.rows.toNat = 1) ∧ c.dlcnt.toNat = (if c.width then 8 else 4) := by
  cases hwidth : c.width <;> simp [CfgFields.valid, hwidth, BitVec.toNat_eq, and_assoc]

/-- The four ways in which a configuration is invalid (60_exceptions.md R108). -/
theorem valid_eq_false_iff (c : CfgFields) :
    c.valid = false ↔
      (c.rows.toNat ≠ 1 ∧ c.rows.toNat ≠ 2) ∨ (c.cols.toNat < 1 ∨ 40 < c.cols.toNat) ∨
      (c.font = true ∧ c.rows.toNat = 2) ∨
      (c.width = true ∧ c.dlcnt.toNat ≠ 8) ∨ (c.width = false ∧ c.dlcnt.toNat ≠ 4) := by
  rw [← Bool.not_eq_true, valid_eq_true_iff]
  cases c.font <;> cases c.width <;> simp <;> omega

/-- INIT finds CONFIG invalid before it looks at PINCTL_OK (60_exceptions.md R108, R114). -/
theorem exec_init_of_invalid {s : State} (hb : s.busy = false) (hs : s.initState = .unconfigured)
    (hvalid : s.config.valid = false) : exec .init s = .next (s.raise .cfgErr) := by
  rw [exec_init hb hs, if_pos hvalid]

/-- With CONFIG valid, INIT looks at PINCTL_OK (60_exceptions.md R109). -/
theorem exec_init_of_noPinController {s : State} (hb : s.busy = false) (hs : s.initState = .unconfigured)
    (hvalid : s.config.valid = true) (hok : s.pinctlOk = false) : exec .init s = .next (s.raise .resErr) := by
  rw [exec_init hb hs, if_neg (by simp [hvalid]), if_pos hok]

/-! ### A CMD write while a command runs -/

/-- A CMD write with BUSY = 1 is the sequencer's cycle with OVR set beside it, whatever the word (60_exceptions.md R112). -/
theorem step_cmdWrite_of_busy {s : State} (hr : s.pins.rstN = true) (hw : s.pins.hwe = true) (haddr : s.pins.haddr = 0)
    (hb : s.busy = true) : step s = .next (s.endCycle s.readData (s.seqCycle.raise .ovr)) := by
  rw [step_busy hr hb]
  simp [accessErrors, accessConfig, hw, haddr, State.raise]

/-! ### The obligations -/

/-- Settles O14: STATE allows a command or the guard raises STERR, and an INITIALIZING block is busy. -/
theorem wrongStateSetsStErrOnly : Obligations.WrongStateSetsStErrOnly := by
  refine fun s i => ⟨fun hb hwrong => ?_, fun hb hallowed => ?_, fun hinv hs => ?_⟩
  · refine exec_wrongState hb ?_
    rcases hwrong with ⟨hs, hi⟩ | ⟨hs, rfl⟩
    · simp [hs, allowedState_of_ne_init hi]
    · simp [hs, allowedState]
  · refine exec_keeps_stErr_of_allowed hb ?_
    rcases hallowed with ⟨hs, rfl⟩ | ⟨hs, hi⟩
    · exact hs
    · rw [hs, allowedState_of_ne_init hi]
  · have hb := hinv.initializing hs
    exact ⟨hb, exec_busy hb i⟩

/-- Settles O13: beside OVR and HRDATA, the cycle of the CMD write is the sequencer's, as the idle bus's is. -/
theorem busyWriteSetsOvrOnly : Obligations.BusyWriteSetsOvrOnly := by
  intro s t p later hhost hr hw haddr hb hstep
  have hpins : s.pins = p := by simp [State.pins, hhost]
  subst hpins
  rw [step_cmdWrite_of_busy hr hw haddr hb] at hstep
  cases hstep
  refine ⟨_, step_drive_of_no_write s later (p := .idle s.pins.pinctlOk) rfl rfl, ?_⟩
  simp [hb, State.endCycle, State.hostAfter, hhost, State.raise, Errors.set]

/-- Settles O15: each way of being invalid makes CONFIG fail INIT's first check. -/
theorem invalidConfigSetsCfgErrOnly : Obligations.InvalidConfigSetsCfgErrOnly :=
  fun s hb hs hways => exec_init_of_invalid hb hs ((valid_eq_false_iff s.config).2 hways)

/-- Settles O16: PINCTL_OK = 0 fails INIT's second check. -/
theorem noPinControllerSetsResErrOnly : Obligations.NoPinControllerSetsResErrOnly :=
  fun _ hb hs hvalid hok => exec_init_of_noPinController hb hs hvalid hok

end Sys2Proof.Machine
end

section
/-! SUPPORT. What the host reads of the block at its reset value, and the statement about a cycle of reset that is assembled from it
(10_state.md R40, 70_reset_and_hazards.md R126). -/

namespace Sys2Proof.Machine

/-! ### The reset value as the host reads it -/

/-- Every register reads 0 after reset (10_state.md R40). -/
theorem reset_hostRead (r : HostReg) : State.reset.hostRead r = 0 := by
  cases r <;> decide

/-- What the host's script still holds does not show in a register. -/
@[simp] theorem resetBlock_hostRead (s : State) (r : HostReg) : s.resetBlock.hostRead r = 0 := by
  have hreset : s.resetBlock.hostRead r = State.reset.hostRead r := by cases r <;> rfl
  rw [hreset, reset_hostRead]

/-! ### The obligation -/

/-- Settles O54: the cycle ends in the block's reset value, of which the end of a cycle changes the environment's fields alone. -/
theorem resetTakesEveryState : Obligations.ResetTakesEveryState := by
  intro s hr
  have hread (r : HostReg) : (s.endCycle none s.resetBlock).hostRead r = 0 := by simp
  have hpads (q : Pad) : (s.endCycle none s.resetBlock).pads.level q = .highZ := level_highZ rfl q
  exact ⟨_, step_reset hr, rfl, rfl, rfl, rfl, rfl, hread, rfl, hpads, rfl, rfl, rfl, rfl⟩

end Sys2Proof.Machine
end

section
/-! SUPPORT. The encoder as the decoder's inverse, the assembly of a mnemonic and of the pseudo-instructions, and the statements
about them (30_encoding.md R58 to R64, R73 to R75). -/

namespace Sys2Proof

open Machine

/-! ### The encoder by the fields of a word -/

/-- An on/off operand is all of B where B[7:1] is 0. -/
theorem bField_eq_bitByte {w : Word} (h : (bField w).extractLsb' 1 7 = 0) : bField w = bitByte (w.getLsbD 0) := by
  have hhigh : w.toNat / 2 % 128 = 0 := by
    rw [← bField_high_toNat, h]
    rfl
  rw [BitVec.toNat_eq, bField_toNat, BitVec.getLsbD_eq_getElem (by decide), BitVec.getElem_eq_testBit_toNat,
    Nat.testBit_zero]
  rcases Nat.mod_two_eq_zero_or_one w.toNat with hbit | hbit <;> simp [hbit] <;> omega

/-- A word whose fields hold a command's operands is the command's word. -/
theorem encode_eq_of_fields {w : Word} {i : Instr} (hrsv : rsvField w = 0) (hopc : opcField w = opcodeOf i)
    (hops : i.OperandsIn w) : encode i = w := by
  rw [← commandWord_fields hrsv, hopc]
  cases i
  case init | clear | home | close =>
    obtain ⟨ha, hb⟩ := hops
    rw [ha, hb]
    rfl
  case cursorBlink on | cursorVisible on | displayOn on | backlight on =>
    obtain ⟨ha, hb, rfl⟩ := hops
    rw [ha, bField_eq_bitByte hb]
    rfl
  case moveLeft n =>
    obtain ⟨ha, rfl⟩ := hops
    simp [encode, opcodeOf, ha]
  case printChar g =>
    obtain ⟨ha, rfl⟩ := hops
    rw [ha]
    rfl
  case setCursor row col =>
    obtain ⟨rfl, rfl⟩ := hops
    simp [encode, opcodeOf]

/-- Operands that a word's fields hold are in their ranges. -/
theorem wellFormed_of_operandsIn {w : Word} {i : Instr} (hops : i.OperandsIn w) : i.WellFormed = true := by
  have hle (b : Byte) : b.toNat ≤ 255 := Nat.le_of_lt_succ b.isLt
  cases i with
  | moveLeft n =>
    obtain ⟨-, rfl⟩ := hops
    exact decide_eq_true (hle _)
  | setCursor row col =>
    obtain ⟨rfl, rfl⟩ := hops
    simp [Instr.WellFormed, hle]
  | _ => rfl

/-! ### The assembly of a mnemonic -/

/-- A mnemonic with operands in range is one write of its word to CMD (30_encoding.md R73). -/
theorem asmCommand_of_wellFormed {i : Instr} (hi : i.WellFormed = true) (ok : Bool) {w : Word} (hw : encode i = w) :
    asmCommand ok i = some (.drive (.write .cmd w ok)) := by
  simp [asmCommand, hi, asmWr, hw]

/-- An operand out of its range is an assembly error (30_encoding.md R73). -/
theorem asmCommand_of_not_wellFormed {i : Instr} (hi : i.WellFormed = false) (ok : Bool) : asmCommand ok i = none := by
  simp [asmCommand, hi]

/-! ### The pseudo-instruction MOVE_LEFT -/

theorem moveLeftCounts_of_nonpos {n : Int} (hn : n ≤ 0) : moveLeftCounts n = [] := if_pos hn

theorem moveLeftCounts_of_le {n : Int} (h1 : 1 ≤ n) (h255 : n ≤ 255) : moveLeftCounts n = [n.toNat] := by
  rw [moveLeftCounts, if_neg (by omega), if_pos h255]

/-- Above 255, the count is divided by 255: the quotient's full commands, and one for what is left. -/
theorem moveLeftCounts_of_gt {n : Int} (hn : 255 < n) :
    moveLeftCounts n
      = List.replicate (n.toNat / 255) 255 ++ if n.toNat % 255 = 0 then [] else [n.toNat % 255] := by
  rw [moveLeftCounts, if_neg (by omega), if_neg (by omega)]

/-- The counts of the commands add up to n. -/
theorem moveLeftCounts_sum {n : Int} (hn : 0 ≤ n) : ((moveLeftCounts n).sum : Int) = n := by
  rcases Int.lt_or_le 255 n with hbig | hle
  · have hsplit : (moveLeftCounts n).sum = n.toNat / 255 * 255 + n.toNat % 255 := by
      rw [moveLeftCounts_of_gt hbig]
      split <;> simp [*]
    omega
  · rcases hn.eq_or_lt with rfl | hpos
    · rfl
    · rw [moveLeftCounts_of_le hpos hle]
      simpa using hn

/-- Every count is a legal operand that moves. -/
theorem mem_moveLeftCounts_bounds {n : Int} {k : Nat} (hk : k ∈ moveLeftCounts n) : 1 ≤ k ∧ k ≤ 255 := by
  rcases Int.lt_or_le 255 n with hbig | hle
  · rw [moveLeftCounts_of_gt hbig, List.mem_append] at hk
    rcases hk with hk | hk
    · simp [List.eq_of_mem_replicate hk]
    · split at hk
      · simp at hk
      · rw [List.mem_singleton] at hk
        omega
  · rcases Int.lt_or_le 0 n with hpos | hnonpos
    · rw [moveLeftCounts_of_le hpos hle, List.mem_singleton] at hk
      omega
    · simp [moveLeftCounts_of_nonpos hnonpos] at hk

/-- All counts but the last are 255. -/
theorem mem_dropLast_moveLeftCounts {n : Int} {k : Nat} (hk : k ∈ (moveLeftCounts n).dropLast) : k = 255 := by
  rcases Int.lt_or_le 255 n with hbig | hle
  · rw [moveLeftCounts_of_gt hbig] at hk
    split at hk
    · rw [List.append_nil] at hk
      exact List.eq_of_mem_replicate (List.mem_of_mem_dropLast hk)
    · rw [List.dropLast_concat] at hk
      exact List.eq_of_mem_replicate hk
  · rcases Int.lt_or_le 0 n with hpos | hnonpos
    · simp [moveLeftCounts_of_le hpos hle] at hk
    · simp [moveLeftCounts_of_nonpos hnonpos] at hk

/-! ### The obligations -/

/-- Settles O3, by the decoder's reading of a command's own word. -/
theorem decodeOfEncode : Obligations.DecodeOfEncode := fun _ hi => decode_encode hi

/-- Settles O4: the decoder accepts a word only where its fields hold the command's operands and nothing else. -/
theorem encodeOfDecode : Obligations.EncodeOfDecode := by
  intro w i h
  obtain ⟨hrsv, hopc, hops⟩ := decode_eq_ok_iff.1 h
  exact ⟨wellFormed_of_operandsIn hops, encode_eq_of_fields hrsv hopc hops⟩

/-- Settles O1: each listed word is the word of its command, and each illegal one meets a bullet of R63. -/
theorem tableWordsDecode : Obligations.TableWordsDecode :=
  ⟨decode_encode (i := .init) rfl, decode_encode (i := .clear) rfl, decode_encode (i := .cursorBlink true) rfl,
    decode_encode (i := .displayOn false) rfl, decode_encode (i := .moveLeft 3) rfl,
    decode_encode (i := .setCursor 1 3) rfl, decode_encode (i := .printChar 0x48) rfl, decode_encode (i := .close) rfl,
    by decide, by decide, by decide, by decide⟩

/-- Settles O2, by the words of the commands as the table writes them. -/
theorem mnemonicsAssembleToTableWords : Obligations.MnemonicsAssembleToTableWords := by
  intro ok
  refine ⟨asmCommand_of_wellFormed rfl ok encode_init, asmCommand_of_wellFormed rfl ok encode_clear,
    asmCommand_of_wellFormed rfl ok encode_home, fun on => asmCommand_of_wellFormed rfl ok (encode_cursorBlink on),
    fun on => asmCommand_of_wellFormed rfl ok (encode_cursorVisible on),
    fun on => asmCommand_of_wellFormed rfl ok (encode_displayOn on), fun n => ?moveLeft, fun row col => ?setCursor,
    fun g => asmCommand_of_wellFormed rfl ok (encode_printChar g),
    fun on => asmCommand_of_wellFormed rfl ok (encode_backlight on), asmCommand_of_wellFormed rfl ok encode_close⟩
  case moveLeft =>
    split
    next hn => exact asmCommand_of_wellFormed (i := .moveLeft n) (decide_eq_true hn) ok (encode_moveLeft hn)
    next hn => exact asmCommand_of_not_wellFormed (i := .moveLeft n) (decide_eq_false hn) ok
  case setCursor =>
    split
    next h => exact asmCommand_of_wellFormed (by simp [Instr.WellFormed, h]) ok (encode_setCursor h.1 h.2)
    next h => exact asmCommand_of_not_wellFormed (by simpa [Instr.WellFormed, imp_iff_not_or] using h) ok

/-- Settles O59, by the counts of MOVE_LEFT and the words of MOVE_LEFT and PRINT_CHAR. -/
theorem pseudoInstructionsExpand : Obligations.PseudoInstructionsExpand := by
  refine ⟨fun n hn => ?nothing,
    fun n hn => ⟨moveLeftCounts_sum hn, fun _ => mem_moveLeftCounts_bounds, fun _ => mem_dropLast_moveLeftCounts⟩,
    fun ok n hn => ?many, fun ok n h1 h255 => ?one, fun _ => rfl, fun ok c text => ?print⟩
  case nothing => simp [asmMoveLeft, moveLeftCounts_of_nonpos hn]
  case many =>
    refine List.flatMap_congr fun k hk => ?_
    rw [if_neg (by omega), encode_moveLeft (mem_moveLeftCounts_bounds hk).2]
    rfl
  case one =>
    rw [asmMoveLeft, moveLeftCounts_of_le h1 h255, List.flatMap_singleton, if_pos h255, encode_moveLeft (by omega)]
    rfl
  case print =>
    rw [← encode_printChar]
    rfl

end Sys2Proof
end

section
/-! SUPPORT. The registers as words, bit by bit and as numbers, what an access does to CONFIG, the cycle of a write, and the statements
about the host bus (10_state.md R17 to R34, 20_memory.md R41 to R55, 30_encoding.md R75). -/

namespace Sys2Proof.Machine

/-! ### The layouts -/

theorem statusWord_toNat (st : InitState) (busy : Bool) (e : Errors) :
    (statusWord st busy e).toNat
      = st.code.toNat + 2 ^ 2 * busy.toNat + 2 ^ 8 * e.cfgErr.toNat + 2 ^ 9 * e.resErr.toNat
        + 2 ^ 10 * e.cmdErr.toNat + 2 ^ 11 * e.stErr.toNat + 2 ^ 12 * e.ovr.toNat := by
  simp only [statusWord, append_toNat, BitVec.toNat_ofBool, BitVec.ofNat_eq_ofNat, BitVec.toNat_ofNat]
  omega

theorem configWord_toNat (c : CfgFields) :
    (configWord c).toNat
      = c.rows.toNat + 2 ^ 3 * c.font.toNat + 2 ^ 4 * c.width.toNat + 2 ^ 8 * c.cols.toNat
        + 2 ^ 16 * c.dlcnt.toNat := by
  simp only [configWord, append_toNat, BitVec.toNat_ofBool, BitVec.ofNat_eq_ofNat, BitVec.toNat_ofNat]
  omega

theorem maskWord_toNat (m : Byte) : (maskWord m).toNat = m.toNat := by
  simp only [maskWord, append_toNat, BitVec.ofNat_eq_ofNat, BitVec.toNat_ofNat]
  omega

theorem pinsWord_toNat (p : Pads) :
    (pinsWord p).toNat
      = p.rs.toNat + 2 * p.e.toNat + 2 ^ 2 * p.bl.toNat + 2 ^ 3 * p.oe.toNat + 2 ^ 8 * p.dl.toNat := by
  simp only [pinsWord, append_toNat, BitVec.toNat_ofBool, BitVec.ofNat_eq_ofNat, BitVec.toNat_ofNat]
  omega

/-- Write-1-to-clear, on the word STATUS reads as (10_state.md R18). -/
theorem statusWord_w1c (st : InitState) (busy : Bool) (e : Errors) (v : Word) :
    statusWord st busy (e.w1c v) = statusWord st busy e &&& ~~~(v &&& 0x00001F00) := by
  refine BitVec.eq_of_getLsbD_eq fun i hi => ?_
  simp only [statusWord, Errors.w1c, BitVec.getLsbD_append, BitVec.getLsbD_and]
  interval_cases i <;> simp

/-- The field bits of a word, read back (10_state.md R22, 20_memory.md R44). -/
theorem configWord_configFields (v : Word) : configWord (configFields v) = v &&& 0x000FFF1B := by
  refine BitVec.eq_of_getLsbD_eq fun i hi => ?_
  simp only [configWord, configFields, BitVec.getLsbD_append]
  interval_cases i <;> simp

/-- Fields written as the word they read as are the same fields. -/
theorem configFields_configWord (c : CfgFields) : configFields (configWord c) = c := by
  obtain ⟨rows, font, width, cols, dlcnt⟩ := c
  simp only [configFields, configWord, CfgFields.mk.injEq]
  refine ⟨BitVec.eq_of_getLsbD_eq fun i hi => ?rows, ?font, ?width, BitVec.eq_of_getLsbD_eq fun i hi => ?cols,
    BitVec.eq_of_getLsbD_eq fun i hi => ?dlcnt⟩
  all_goals simp only [BitVec.getLsbD_extractLsb', BitVec.getLsbD_append]
  case rows => simp [hi]
  case font | width => simp
  case cols | dlcnt => interval_cases i <;> simp

/-- The fields of CONFIG in their places (10_state.md R22). -/
theorem configWord_eq_or (c : CfgFields) :
    configWord c = c.rows.setWidth 32 ||| ((BitVec.ofBool c.font).setWidth 32 <<< 3)
      ||| ((BitVec.ofBool c.width).setWidth 32 <<< 4) ||| (c.cols.setWidth 32 <<< 8) ||| (c.dlcnt.setWidth 32 <<< 16) := by
  refine BitVec.eq_of_getLsbD_eq fun i hi => ?_
  simp only [configWord, BitVec.getLsbD_append, BitVec.getLsbD_or, BitVec.getLsbD_shiftLeft, BitVec.getLsbD_setWidth]
  interval_cases i <;> simp

theorem ofBool_setWidth (b : Bool) : (BitVec.ofBool b).setWidth 32 = BitVec.ofNat 32 b.toNat := by
  cases b <;> rfl

/-- SETCFG's word is the word that its fields read as (30_encoding.md R75). -/
theorem setCfgWord_eq_configWord {rows cols dlcnt : Nat} (font width : Bool) (hrows : rows < 4) (hcols : cols < 256)
    (hdlcnt : dlcnt < 16) :
    setCfgWord rows cols font width dlcnt
      = configWord { rows := BitVec.ofNat 2 rows, font := font, width := width, cols := BitVec.ofNat 8 cols,
                     dlcnt := BitVec.ofNat 4 dlcnt } := by
  rw [configWord_eq_or, BitVec.setWidth_ofNat_of_le_of_lt (by decide) hrows,
    BitVec.setWidth_ofNat_of_le_of_lt (by decide) hcols, BitVec.setWidth_ofNat_of_le_of_lt (by decide) hdlcnt,
    ofBool_setWidth, ofBool_setWidth, setCfgWord]

/-! ### CONFIG through a command, an access and a step -/

/-- No accepted command writes CONFIG (10_state.md R23). -/
theorem acceptedState_config (s : State) (i : Instr) : (acceptedState s i).config = s.config := by
  cases i with
  | setCursor row col => simp only [acceptedState]; split <;> simp
  | _ => simp [acceptedState]

/-- No CMD write changes CONFIG. -/
theorem handleCmd_config {s t : State} {v : Word} (h : s.handleCmd v = .next t) : t.config = s.config := by
  rcases handleCmd_cases v s with ⟨e, hc⟩ | ⟨-, -, -, -, -, hc⟩ | ⟨i, -, -, -, -, hc⟩ <;> rw [hc] at h <;> cases h
  · rfl
  · exact State.begin_config s
  · exact acceptedState_config s i

/-- An access changes CONFIG by a host write to index 2 and by nothing else. -/
theorem access_config {s u : State} (h : s.access = .next u) : u.config = accessConfig s.pins s.config := by
  have hi := ofIndex_iff s.pins.haddr
  rcases hw : s.pins.hwe with _ | _
  · rw [access_of_no_write hw] at h
    cases h
    simp [accessConfig, hw]
  · simp only [State.access, hw, if_true] at h
    rcases hreg : HostReg.ofIndex s.pins.haddr <;> rw [hreg] at h hi
    case cmd => simp [handleCmd_config h, accessConfig, hw, hi.1.1 rfl]
    case config =>
      cases h
      simp [accessConfig, hw, hi.2.2.1 rfl]
    all_goals
      cases h
      simp_all [accessConfig]

/-- So does a step out of reset, whatever the sequencer does. -/
theorem step_config {s t : State} (hr : s.pins.rstN = true) (h : step s = .next t) :
    t.config = accessConfig s.pins s.config := by
  obtain ⟨hr', -⟩ | ⟨-, u, hu, rfl⟩ := step_cases h
  · simp [hr] at hr'
  · rw [← access_config hu]
    cases s.busy <;> simp

/-! ### The cycle of a write -/

/-- The access of a cycle in which the host drives p with a write. -/
theorem access_drive_of_write (s : State) {p : HostPins} (later : List HostAction) (hw : p.hwe = true) :
    ({ s with host := .drive p :: later } : State).access
      = ({ s with host := .drive p :: later } : State).hostWrite (.ofIndex p.haddr) p.hwdata := by
  simp [State.access, State.pins, hw]

/-- A cycle in which the host drives p with a write: beside HRDATA, what the write and the sequencer do. -/
theorem step_drive_of_write (s : State) {p : HostPins} (later : List HostAction) (hr : p.rstN = true)
    (hw : p.hwe = true) :
    step { s with host := .drive p :: later }
      = onNext (({ s with host := .drive p :: later } : State).hostWrite (.ofIndex p.haddr) p.hwdata) fun u =>
          { (if s.busy then u.seqCycle else u) with
            hrdata := if p.hre then some (Config.hrdataBoth s.draws) else none
            host := later
            draws := s.draws + 1 } := by
  have hread : ({ s with host := .drive p :: later } : State).readData
      = if p.hre then some (Config.hrdataBoth s.draws) else none := by
    simp [State.readData, State.pins, hw]
  obtain ⟨u, hu⟩ := access_next { s with host := .drive p :: later }
  rw [step_run (s := { s with host := .drive p :: later }) hr hu, ← access_drive_of_write s later hw, hu, hread, onNext_next]
  rfl

/-- A write to the index of a register that is only read does nothing (20_memory.md R44). -/
theorem hostWrite_readOnly {i : BitVec 3} (hi : 3 ≤ i.toNat) (v : Word) (s : State) :
    s.hostWrite (.ofIndex i) v = .next s := by
  have hindex : ∀ i : BitVec 3, 3 ≤ i.toNat →
      HostReg.ofIndex i = .maskEm ∨ HostReg.ofIndex i = .maskDc ∨ HostReg.ofIndex i = .maskDs ∨
        HostReg.ofIndex i = .maskFs ∨ HostReg.ofIndex i = .pins := by decide
  rcases hindex i hi with h | h | h | h | h <;> rw [h] <;> rfl

/-! ### The cycle of a command -/

/-- Out of reset, the cycle in which a word that decodes to i is written to CMD runs i. -/
theorem step_of_cmdWrite {s : State} {i : Instr} (hr : s.pins.rstN = true) (hw : s.pins.hwe = true)
    (haddr : s.pins.haddr = 0) (hi : decode s.pins.hwdata = .ok i) :
    step s = onNext (exec i s) fun t => s.endCycle s.readData (if s.busy then t.seqCycle else t) := by
  have hreg : HostReg.ofIndex s.pins.haddr = .cmd := (ofIndex_iff _).1.2 haddr
  have haccess : s.access = exec i s := by simp [State.access, hw, hreg, State.hostWrite, handleCmd_legal s hi]
  simp [step, State.cycle, hr, haccess]

theorem decodeTableWord_eq_some_iff {nbits w : Nat} {i : Instr} :
    decodeTableWord nbits w = some i ↔ decode (tableWord nbits w) = .ok i := by
  unfold decodeTableWord
  cases decode (tableWord nbits w) <;> simp [Except.toOption]

/-! ### A running command -/

/-- A cycle that begins with BUSY = 1 does the same beside CONFIG and HRDATA whatever CONFIG is (10_state.md R23). -/
theorem step_busy_config {s : State} (hr : s.pins.rstN = true) (hb : s.busy = true) (c : CfgFields) :
    step { s with config := c }
      = .next (s.endCycle ({ s with config := c } : State).readData
          { s.seqCycle with errors := accessErrors s.pins s.errors, config := accessConfig s.pins c }) := by
  rw [step_busy (s := { s with config := c }) hr hb]
  have hseq := seqCycle_environment s s.errors c s.hrdata s.host s.draws
  simp only [hseq]
  rfl

/-! ### The obligations -/

/-- Settles O7, by the layouts as numbers. -/
theorem registerLayouts : Obligations.RegisterLayouts := by
  refine fun s => ⟨rfl, ?_, configWord_toNat _, maskWord_toNat _, maskWord_toNat _, maskWord_toNat _, maskWord_toNat _,
    pinsWord_toNat _⟩
  simp only [State.hostRead, statusWord_toNat]
  cases s.initState <;> rfl

/-- Settles O9, by write-1-to-clear on the word. -/
theorem statusWriteClearsOnes : Obligations.StatusWriteClearsOnes :=
  fun _ v => ⟨_, rfl, statusWord_w1c _ _ _ v, rfl⟩

/-- Settles O10, by the word that the written fields read as and by the writers of CONFIG in a step. -/
theorem configWriteKeepsFieldBits : Obligations.ConfigWriteKeepsFieldBits := by
  refine ⟨fun s v => ⟨_, rfl, configWord_configFields v, rfl⟩, fun s t hstep => ⟨fun hr => ?_, fun hr hw haddr => ?_,
    fun hr hno => ?_⟩⟩
  · rw [step_reset hr] at hstep
    cases hstep
    simp
  · have hconfig : t.config = configFields s.pins.hwdata := by simp [step_config hr hstep, accessConfig, hw, haddr]
    simp [State.hostRead, hconfig, configWord_configFields]
  · rw [step_config hr hstep, accessConfig]
    rcases hno with hw | haddr
    · simp [hw]
    · simp only [haddr, if_false, ite_self]

/-- Settles O11: the write does nothing, and beside it the cycle is the sequencer's, as the idle bus's is. -/
theorem readOnlyWritesHaveNoEffect : Obligations.ReadOnlyWritesHaveNoEffect := by
  intro s t p later hhost hr hw hre haddr hstep
  have hwrite := step_drive_of_write s later hr hw
  rw [← hhost, hstep, hostWrite_readOnly haddr, onNext_next] at hwrite
  cases hwrite
  rw [step_drive_of_no_write s later (p := .idle p.pinctlOk) rfl rfl]
  simp [hre, HostPins.idle]

/-- Settles O12: a write looks at no strobe but its own, and the read strobe only makes HRDATA a word. -/
theorem bothStrobesPerformTheWrite : Obligations.BothStrobesPerformTheWrite := by
  intro s p later hr hw hre
  obtain ⟨v, hv⟩ := access_next { s with host := .drive { p with hre := false } :: later }
  rw [access_drive_of_write s (p := { p with hre := false }) later hw] at hv
  have hboth := hostWrite_host (.ofIndex p.haddr) p.hwdata { s with host := .drive { p with hre := false } :: later }
    (.drive p :: later) rfl
  rw [hv, onNext_next] at hboth
  refine ⟨_, _, by rw [step_drive_of_write s later hr hw, hboth, onNext_next],
    by rw [step_drive_of_write s (p := { p with hre := false }) later hr hw, hv, onNext_next], ?_, ?_⟩
  · simp [hre]
  · rw [seqCycle_host]
    cases s.busy <;> rfl

/-- Settles O55, by what the host reads of the reset value. -/
theorem resetValues : Obligations.ResetValues := ⟨reset_hostRead, rfl, rfl, rfl, rfl, rfl, rfl, rfl⟩

/-- Settles O47: a cycle of reset answers a next state, and so does every access. -/
theorem everyStepAnswers : Obligations.EveryStepAnswers := by
  intro s
  rcases hr : s.pins.rstN with _ | _
  · exact ⟨_, step_reset hr⟩
  · obtain ⟨u, hu⟩ := access_next s
    exact ⟨_, step_run hr hu⟩

/-- Settles O56: reset drops CONFIG, and out of reset the cycle looks at CONFIG for HRDATA only. -/
theorem configDoesNotReachARunningCommand : Obligations.ConfigDoesNotReachARunningCommand := by
  intro s t c hb hstep
  rcases hr : s.pins.rstN with _ | _
  · rw [step_reset hr] at hstep
    cases hstep
    exact ⟨_, step_reset (s := { s with config := c }) hr, rfl⟩
  · rw [step_busy hr hb] at hstep
    cases hstep
    exact ⟨_, step_busy_config hr hb c, rfl⟩

/-- Settles O57: the access of the cycle is the command, and withFetchWord makes the next cycle that of its CMD write. -/
theorem stepRunsTheDecodedCommand : Obligations.StepRunsTheDecodedCommand := by
  refine ⟨fun s i hr hw haddr hi => step_of_cmdWrite hr hw haddr hi, fun s nbits w i hi => ?_⟩
  have hword : decode (s.withFetchWord nbits w).pins.hwdata = .ok i := decodeTableWord_eq_some_iff.1 hi
  exact step_of_cmdWrite rfl rfl rfl hword

/-- Settles O58: SETCFG's word is its fields' word, from which the write reads them back. -/
theorem setCfgGivesTheFields : Obligations.SetCfgGivesTheFields := by
  intro s rows cols dlcnt font width hrows hcols hdlcnt
  rw [setCfgWord_eq_configWord font width hrows hcols hdlcnt, State.hostWrite, configFields_configWord]

end Sys2Proof.Machine
end

section
/-! SUPPORT. The error bits one by one, what a step does to them, and the statements about them that are assembled from it
(10_state.md R18, R21; 60_exceptions.md R107, R113 to R116). -/

namespace Sys2Proof.Machine

/-! ### The error bits one by one -/

/-- An error sets its own bit (10_state.md R21). -/
@[simp] theorem Errors.set_get_same (e : Errors) (c : ErrorCode) : (e.set c).get c = true := by
  cases c <;> rfl

/-- An error leaves the other bits (60_exceptions.md R107). -/
theorem Errors.set_get_of_ne (e : Errors) {c d : ErrorCode} (h : d ≠ c) : (e.set c).get d = e.get d := by
  cases c <;> cases d
  case cfgErr.cfgErr | resErr.resErr | cmdErr.cmdErr | stErr.stErr | ovr.ovr => exact absurd rfl h
  all_goals rfl

/-- A STATUS write clears a bit exactly where the word's bit is 1 (10_state.md R18). -/
theorem Errors.w1c_get (e : Errors) (v : Word) (c : ErrorCode) :
    (e.w1c v).get c = (e.get c && !v.getLsbD c.bit) := by
  cases c <;> rfl

/-! ### The error bits through a CMD write, an access and a step -/

/-- A CMD write raises one error, or leaves every error bit. -/
theorem handleCmd_raises_or_keeps {s t : State} {v : Word} (h : s.handleCmd v = .next t) :
    (∃ e, t = s.raise e) ∨ t.errors = s.errors := by
  rcases handleCmd_cases v s with ⟨e, hc⟩ | ⟨-, -, -, -, -, hc⟩ | ⟨i, -, -, -, -, hc⟩ <;> rw [hc] at h <;> cases h
  · exact .inl ⟨e, rfl⟩
  · exact .inr (State.begin_errors s)
  · exact .inr (acceptedState_errors s i)

/-- An access leaves the error bits, raises an error by a CMD write, or clears by a STATUS write. -/
theorem access_errors {s u : State} (h : s.access = .next u) :
    u.errors = s.errors ∨
    (s.pins.hwe = true ∧ s.pins.haddr = 0 ∧ ∃ e, u.errors = s.errors.set e) ∨
    (s.pins.hwe = true ∧ s.pins.haddr = 1 ∧ u.errors = s.errors.w1c s.pins.hwdata) := by
  obtain ⟨hcmd, hstatus, -⟩ := ofIndex_iff s.pins.haddr
  rcases access_cases s with ⟨hw, hreg, ha⟩ | ⟨hw, hreg, ha⟩ | ⟨-, -, ha⟩ | ha <;> rw [ha] at h
  · rcases handleCmd_raises_or_keeps h with ⟨e, rfl⟩ | hkeep
    · exact .inr (.inl ⟨hw, hcmd.1 hreg, e, rfl⟩)
    · exact .inl hkeep
  · cases h
    exact .inr (.inr ⟨hw, hstatus.1 hreg, rfl⟩)
  all_goals
    cases h
    exact .inl rfl

/-- So does a step out of reset: the running command touches no error bit (60_exceptions.md R113). -/
theorem step_errors {s t : State} (hr : s.pins.rstN = true) (h : step s = .next t) :
    t.errors = s.errors ∨
    (s.pins.hwe = true ∧ s.pins.haddr = 0 ∧ ∃ e, t.errors = s.errors.set e) ∨
    (s.pins.hwe = true ∧ s.pins.haddr = 1 ∧ t.errors = s.errors.w1c s.pins.hwdata) := by
  obtain ⟨hr', -⟩ | ⟨-, u, hu, rfl⟩ := step_cases h
  · simp [hr] at hr'
  · have hseq : (s.endCycle s.readData (if s.busy then u.seqCycle else u)).errors = u.errors := by
      cases s.busy <;> simp
    rw [hseq]
    exact access_errors hu

/-- The STATE a command needs, by whether it is INIT (60_exceptions.md R111). -/
theorem allowedState_eq_ite (i : Instr) : allowedState i = if i = .init then .unconfigured else .ready := by
  cases i <;> rfl

/-! ### The obligations -/

/-- Settles O17: each check is that of the guard, the decoder, the STATE or INIT, in this order. -/
theorem errorPriority : Obligations.ErrorPriority := by
  refine fun s v => ⟨fun hb => handleCmd_busy hb v, fun hb hv => ?cmdErr, fun i hb hv hs => ?stErr,
    fun hb hv hs hvalid => ?cfgErr, fun hb hv hs hvalid hok => ?resErr, fun i hb hv hs hinit => ?accepted⟩
  case cmdErr =>
    obtain ⟨e, he⟩ := legal_eq_false_iff.1 hv
    exact handleCmd_illegal hb he
  case stErr =>
    rw [← allowedState_eq_ite] at hs
    exact (handleCmd_legal s hv).trans (exec_wrongState hb hs)
  case cfgErr => exact (handleCmd_legal s hv).trans (exec_init_of_invalid hb hs hvalid)
  case resErr => exact (handleCmd_legal s hv).trans (exec_init_of_noPinController hb hs hvalid hok)
  case accepted =>
    have hexec : ∃ t, exec i s = .next t ∧ t.errors = s.errors := by
      by_cases hi : i = .init
      · subst hi
        obtain ⟨hvalid, hok⟩ := hinit rfl
        exact ⟨_, (init_and_word_begin hb hs hvalid hok).1, State.begin_errors s⟩
      · rw [if_neg hi] at hs
        exact ⟨_, exec_accept hb hs hi, acceptedState_errors s i⟩
    obtain ⟨t, ht, herrors⟩ := hexec
    exact ⟨t, (handleCmd_legal s hv).trans ht, ht, herrors⟩

/-- Settles O18: a CMD write that raises an error does nothing else. -/
theorem errorsArePrecise : Obligations.ErrorsArePrecise := by
  intro s t v h
  rcases handleCmd_raises_or_keeps h with ⟨e, rfl⟩ | hkeep
  · exact .inr ⟨e, rfl, Errors.set_get_same _ e, fun f hf => Errors.set_get_of_ne _ hf⟩
  · exact .inl hkeep

/-- Settles O19: of what a step does to the error bits, only a STATUS write clears one. -/
theorem errorBitsAreSticky : Obligations.ErrorBitsAreSticky := by
  intro s t e hstep hset hclear
  rcases hr : s.pins.rstN with _ | _
  · exact .inl rfl
  · rcases step_errors hr hstep with hkeep | ⟨-, -, c, hraise⟩ | ⟨hw, haddr, hw1c⟩
    · rw [hkeep, hset] at hclear
      cases hclear
    · rw [hraise] at hclear
      by_cases hc : e = c
      · subst hc
        simp at hclear
      · simp [Errors.set_get_of_ne _ hc, hset] at hclear
    · rw [hw1c, Errors.w1c_get, hset] at hclear
      refine .inr ⟨hw, haddr, ?_⟩
      cases e <;> simpa [ErrorCode.bit] using hclear

/-- Settles O20: of what a step does to the error bits, only a CMD write sets one. -/
theorem onlyCmdWritesSetErrors : Obligations.OnlyCmdWritesSetErrors := by
  intro s t e hstep hclear hset
  rcases hr : s.pins.rstN with _ | _
  · rw [step_reset hr] at hstep
    cases hstep
    cases e <;> cases hset
  · rcases step_errors hr hstep with hkeep | ⟨hw, haddr, -⟩ | ⟨-, -, hw1c⟩
    · rw [hkeep, hclear] at hset
      cases hset
    · exact ⟨rfl, hw, haddr⟩
    · rw [hw1c, Errors.w1c_get, hclear] at hset
      cases hset

end Sys2Proof.Machine
end

section
/-! SUPPORT. What a toggle's inverse restores, the configuration and the set-address byte in numbers, and the statements about them
(41_protocol_ops.md R90 to R92, 42_lifecycle.md R98, 30_encoding.md R70). -/

namespace Sys2Proof.Machine

/-- Setting a bit and then setting it to what it was restores the byte. -/
theorem setMaskBit_restores {k : Nat} (hk : k < 8) {on : Bool} {m : Byte} (hm : m.getLsbD k = !on) :
    setMaskBit k (!on) (setMaskBit k on m) = m := by
  refine BitVec.eq_of_getLsbD_eq fun j _ => ?_
  rw [setMaskBit_getLsbD hk, setMaskBit_getLsbD hk]
  by_cases hj : j = k <;> simp [hj, hm]

/-- The three toggles are `State.toggle` of their bit. -/
theorem acceptedState_of_toggles {i : Instr} {k : Nat} {on : Bool} (h : Toggles i k on) (s : State) :
    i ≠ .init ∧ acceptedState s i = s.toggle k on := by
  rcases h with ⟨rfl, rfl⟩ | ⟨rfl, rfl⟩ | ⟨rfl, rfl⟩ <;> exact ⟨nofun, rfl⟩

/-- An accepted toggle of bit k and then its inverse, with the masks left between, restore the masks. -/
theorem masks_restored_of_toggles {i j : Instr} {k : Nat} {on : Bool} (hi : Toggles i k on) (hj : Toggles j k !on)
    {s t u v : State} (hb : s.busy = false) (hs : s.initState = .ready) (hb' : u.busy = false)
    (hs' : u.initState = .ready) (hmasks : u.masks = t.masks) (h : exec i s = .next t) (h' : exec j u = .next v)
    (hbit : s.masks.dc.getLsbD k = !on) : v.masks = s.masks := by
  obtain ⟨hinit, htoggle⟩ := acceptedState_of_toggles hi s
  obtain ⟨hinit', htoggle'⟩ := acceptedState_of_toggles hj u
  rw [exec_accept hb hs hinit, htoggle] at h
  rw [exec_accept hb' hs' hinit', htoggle'] at h'
  cases h
  cases h'
  simp [hmasks, setMaskBit_restores (toggles_lt hi) hbit]

/-- Settles O34: the second toggle restores the bit of MASK.DC that the first changed. -/
theorem togglesRoundTrip : Obligations.TogglesRoundTrip := fun _ _ _ _ _ hb hs hb' hs' hmasks =>
  ⟨masks_restored_of_toggles (.inl ⟨rfl, rfl⟩) (.inl ⟨rfl, rfl⟩) hb hs hb' hs' hmasks,
    masks_restored_of_toggles (.inr (.inl ⟨rfl, rfl⟩)) (.inr (.inl ⟨rfl, rfl⟩)) hb hs hb' hs' hmasks,
    masks_restored_of_toggles (.inr (.inr ⟨rfl, rfl⟩)) (.inr (.inr ⟨rfl, rfl⟩)) hb hs hb' hs' hmasks⟩

/-- Settles O32, by the valid configurations in numbers. -/
theorem configValidity : Obligations.ConfigValidity := valid_eq_true_iff

/-- Settles O36: a valid configuration has at most two rows and 40 columns, so the set-address byte does not wrap. -/
theorem setAddressByteRange : Obligations.SetAddressByteRange := by
  intro c row col hvalid hrow hcol
  obtain ⟨hrows, hcols, -⟩ := valid_bounds hvalid
  have hnum := setAddressByte_toNat (row := row) (col := col) (by omega) (by omega)
  exact ⟨hnum, by omega⟩

end Sys2Proof.Machine
end

section
/-! SUPPORT. What the invariant asks of the pending actions, the sequencer where an action has just started, and the invariant through
reset, an access and a cycle of the sequencer; then the statements about the whole machine that rest on it (10_state.md R24 to R38,
40_bus_writer.md R77 to R84, 42_lifecycle.md R98 to R105). -/

namespace Sys2Proof.Machine

/-! ### Enable pulses -/

/-- Whole pulses after whole pulses are whole pulses. -/
theorem runs_append {p : PulsePhase} {xs ys : List Action} (hx : p.runs xs = true)
    (hy : PulsePhase.rest.runs ys = true) : p.runs (xs ++ ys) = true := by
  induction xs generalizing p with
  | nil =>
    obtain rfl : p = .rest := of_decide_eq_true hx
    exact hy
  | cons a xs ih =>
    simp only [List.cons_append, PulsePhase.runs] at hx ⊢
    split at hx
    next q hq => simpa [hq] using ih hx
    next => cases hx

/-- The first action is one that the phase allows, and the others run from the next phase. -/
theorem runs_cons_iff {p : PulsePhase} {a : Action} {later : List Action} :
    p.runs (a :: later) = true ↔ ∃ q, p.next a = some q ∧ q.runs later = true := by
  cases h : p.next a <;> simp [PulsePhase.runs, h]

/-- E is high after an action exactly in the phases with E high (40_bus_writer.md R81, R84). -/
theorem apply_e_of_next {p q : PulsePhase} {a : Action} (h : p.next a = some q) {pads : Pads}
    (he : pads.e = p.eHigh) : (a.apply pads).e = q.eHigh := by
  unfold PulsePhase.next at h
  split at h <;> cases h
  case h_4 | h_8 | h_10 => rfl
  all_goals exact he

/-! ### Bus actions -/

/-- What every command but INIT and CLOSE leaves pending: no AllLow, no SetOE, whole enable pulses, and in 4-bit width no data on
DL[7:4]. -/
structure BusActions (width : Bool) (acts : List Action) : Prop where
  allLow : Action.allLow ∉ acts
  setOE : ∀ v, Action.setOE v ∉ acts
  runs : PulsePhase.rest.runs acts = true
  nibbles : width = false → ∀ a ∈ acts, a.lowLines = true

namespace BusActions

theorem nil (width : Bool) : BusActions width [] where
  allLow := List.not_mem_nil
  setOE _ := List.not_mem_nil
  runs := rfl
  nibbles _ _ h := absurd h List.not_mem_nil

theorem append {width : Bool} {xs ys : List Action} (hx : BusActions width xs) (hy : BusActions width ys) :
    BusActions width (xs ++ ys) where
  allLow := by simp [hx.allLow, hy.allLow]
  setOE v := by simp [hx.setOE v, hy.setOE v]
  runs := runs_append hx.runs hy.runs
  nibbles hw a ha := (List.mem_append.1 ha).elim (hx.nibbles hw a) (hy.nibbles hw a)

theorem replicate {width : Bool} {acts : List Action} (h : BusActions width acts) (n : Nat) :
    BusActions width (List.replicate n acts).flatten := by
  induction n with
  | zero => exact nil width
  | succ n ih =>
    rw [List.replicate_succ, List.flatten_cons]
    exact h.append ih

theorem transfer {width sel : Bool} {d : Byte} (hd : width = false → d &&& 0xF0 = 0) :
    BusActions width (transfer sel d) where
  allLow := by simp [Machine.transfer, pulse]
  setOE v := by simp [Machine.transfer, pulse]
  runs := rfl
  nibbles hw := by simpa [Machine.transfer, pulse, Action.lowLines] using hd hw

end BusActions

theorem highNibble_and_high (p : Byte) : highNibble p &&& 0xF0 = 0 := by
  refine BitVec.eq_of_getLsbD_eq fun i hi => ?_
  interval_cases i <;> simp [highNibble]

theorem lowNibble_and_high (p : Byte) : lowNibble p &&& 0xF0 = 0 := by
  refine BitVec.eq_of_getLsbD_eq fun i hi => ?_
  interval_cases i <;> simp [lowNibble]

/-- A bus write in the width it is made for (40_bus_writer.md R77 to R80). -/
theorem busActions_busWrite (width : Bool) (p : Byte) (sel : Bool) : BusActions width (busWrite width p sel) := by
  cases width
  · exact (BusActions.transfer fun _ => highNibble_and_high p).append (.transfer fun _ => lowNibble_and_high p)
  · exact .transfer nofun

/-- The two waits that follow a bus write. -/
theorem busActions_settle (width : Bool) : BusActions width [.wait .settle] :=
  ⟨by decide, by simp, rfl, by simp [Action.lowLines]⟩

theorem busActions_clear (width : Bool) : BusActions width [.wait .clear] :=
  ⟨by decide, by simp, rfl, by simp [Action.lowLines]⟩

theorem busActions_setBL (width on : Bool) : BusActions width [.setBL on] :=
  ⟨by simp, by simp, rfl, by simp [Action.lowLines]⟩

/-- INIT is SetOE(1) and then bus actions (42_lifecycle.md R99, R101). -/
theorem busActions_initActions_tail (width : Bool) (m : MaskTable) : BusActions width (initActions width m).tail :=
  (((((busActions_busWrite width m.fs false).append (busActions_settle width)).append
    (busActions_busWrite width m.dc false)).append (busActions_settle width)).append
    (busActions_busWrite width clearByte false)).append (busActions_clear width)

/-! ### A sequencer whose action has just started -/

/-- The current action, if there is one, has its whole duration ahead of it, and with none the sequencer is empty. -/
structure State.Started (s : State) : Prop where
  idle : s.current = none → s.queue = [] ∧ s.repeatLeft = 0 ∧ s.waitCount = 0
  loaded : ∀ a, s.current = some a → s.waitCount = a.waitLoad

/-- A wait starts with W_T, any other action with 0 (10_state.md R38). -/
theorem waitLoad_bounds (a : Action) :
    (∀ t, a = .wait t → 1 ≤ a.waitLoad ∧ a.waitLoad ≤ t.cycles) ∧ ((∀ t, a ≠ .wait t) → a.waitLoad = 0) := by
  refine ⟨?_, fun hne => ?_⟩
  · rintro t rfl
    exact ⟨delay_cycles_pos t, le_rfl⟩
  · cases a with
    | wait t => exact absurd rfl (hne t)
    | _ => rfl

theorem started_load {acts : List Action} {s : State} (h : acts = [] → s.repeatLeft = 0) : (s.load acts).Started := by
  cases acts with
  | nil => exact ⟨fun _ => ⟨rfl, h rfl, rfl⟩, nofun⟩
  | cons a rest =>
    refine ⟨nofun, fun b hb => ?_⟩
    cases hb
    rfl

theorem started_startMoves (n : Nat) (s : State) : (s.startMoves n).Started := by
  cases n with
  | zero => exact started_load (acts := []) (s := { s with repeatLeft := 0 }) fun _ => rfl
  | succ k => exact started_load fun h => absurd h (busWrite_ne_nil _ _ _)

theorem started_advance (s : State) : s.advance.Started := by
  unfold State.advance
  split
  · exact started_startMoves _ s
  · exact started_load nofun

theorem started_complete (a : Action) (s : State) : (s.complete a).Started := by
  obtain ⟨hidle, hloaded⟩ := started_advance (({ s with pads := a.apply s.pads } : State).afterAction a)
  constructor
  · simpa [State.complete] using hidle
  · simpa [State.complete] using hloaded

/-- An accepted command leaves its first action just started. -/
theorem started_acceptedState {s : State} (hinv : s.Inv) (hb : s.busy = false) (i : Instr) :
    (acceptedState s i).Started := by
  obtain ⟨hcurrent, -, hrep⟩ := idle_fields hb
  have hs : s.Started := ⟨hinv.idle, fun a ha => by simp [hcurrent] at ha⟩
  have hwrite (p : Byte) (sel : Bool) (more : List Action) (u : State) : (u.write p sel more).Started :=
    started_load fun h => absurd (List.append_eq_nil_iff.1 h).1 (busWrite_ne_nil _ _ _)
  cases i with
  | init => exact hs
  | clear => exact hwrite _ _ _ s
  | home => exact hwrite _ _ _ s
  | cursorBlink on => exact hwrite _ _ _ _
  | cursorVisible on => exact hwrite _ _ _ _
  | displayOn on => exact hwrite _ _ _ _
  | moveLeft n => exact started_startMoves n s
  | setCursor row col =>
    simp only [acceptedState]
    split
    · exact hwrite _ _ _ s
    · exact hs
  | printChar g => exact hwrite _ _ _ s
  | backlight on => exact started_load (acts := [.setBL on]) nofun
  | close => exact started_load (acts := [.allLow]) nofun

/-! ### The invariant and the environment -/

/-- The invariant is about the block: it does not look at the error bits, CONFIG, or the model's own fields. -/
theorem inv_environment {s : State} (hinv : s.Inv) (e : Errors) (c : CfgFields) (h : Option Word) (l : List HostAction)
    (d : Nat) : ({ s with errors := e, config := c, hrdata := h, host := l, draws := d } : State).Inv :=
  ⟨hinv.unconfigured, hinv.seeded, hinv.initializing, hinv.idle, hinv.waits, hinv.repeats, hinv.allLow, hinv.setOE,
    hinv.driven, hinv.pulses, hinv.nibbles⟩

/-- The end of a cycle keeps the invariant. -/
theorem inv_endCycle {t : State} (hinv : t.Inv) (s : State) (read : Option Word) : (s.endCycle read t).Inv :=
  inv_environment hinv t.errors t.config read s.hostAfter (s.draws + 1)

/-! ### The invariant where no action has run yet -/

/-- An idle UNCONFIGURED block, unseeded and with its latches low, meets the invariant, whatever OE is. -/
theorem inv_of_unconfigured {s : State} (hs : s.initState = .unconfigured) (hmasks : s.masks = .unseeded)
    (hacfg : s.acfg = .zero) (hb : s.busy = false) (hw : s.waitCount = 0) (hlow : s.pads.Low) : s.Inv := by
  obtain ⟨hcurrent, hqueue, hrep⟩ := idle_fields hb
  have hpending : s.pending = [] := (busy_eq_false_iff s).1 hb
  exact {
    unconfigured := fun _ => ⟨hmasks, hacfg, hb, hlow⟩
    seeded := fun h => absurd hs h
    initializing := by simp [hs]
    idle := fun _ => ⟨hqueue, hrep, hw⟩
    waits := by simp [hcurrent]
    repeats := fun h => absurd hrep h
    allLow := by simp [hpending]
    setOE := by simp [hqueue, hcurrent]
    driven := fun h => absurd hs h
    pulses := by
      obtain ⟨-, he, -⟩ := hlow
      exact ⟨.rest, by simp [hpending, PulsePhase.runs], he⟩
    nibbles := fun h => absurd hs h }

theorem inv_reset : State.reset.Inv := inv_of_unconfigured rfl rfl rfl rfl rfl ⟨rfl, rfl, rfl, rfl⟩

/-- A block whose pads no SetOE is going to touch. -/
theorem setOE_of_not_mem_pending {s : State} (h : ∀ v, Action.setOE v ∉ s.pending) (v : Bool) :
    (.setOE v ∉ s.queue) ∧ (s.current = some (.setOE v) → v = true ∧ s.initState = .initializing ∧ s.pads.Low) := by
  have hv := h v
  simp only [State.pending, List.mem_append, not_or, Option.mem_toList] at hv
  obtain ⟨⟨hcurrent, hqueue⟩, -⟩ := hv
  exact ⟨hqueue, fun hc => absurd hc hcurrent⟩

/-- Between two commands E is low (40_bus_writer.md R84). -/
theorem e_low_of_idle {s : State} (hinv : s.Inv) (hb : s.busy = false) : s.pads.e = false := by
  obtain ⟨p, hruns, he⟩ := hinv.pulses
  rw [(busy_eq_false_iff s).1 hb] at hruns
  obtain rfl : p = .rest := of_decide_eq_true hruns
  exact he

/-! ### The invariant through an access -/

/-- INIT whose checks pass begins in a state of the invariant (42_lifecycle.md R99 to R102). -/
theorem inv_begin {s : State} (hinv : s.Inv) (hb : s.busy = false) (hs : s.initState = .unconfigured)
    (hvalid : s.config.valid = true) : s.begin.Inv := by
  obtain ⟨-, -, -, hlow⟩ := hinv.unconfigured hs
  obtain ⟨-, -, hrep⟩ := idle_fields hb
  have hbus := busActions_initActions_tail s.config.width (.seeded s.config)
  have hpending : s.begin.pending = .setOE true :: (initActions s.config.width (.seeded s.config)).tail := pending_begin hb
  exact {
    unconfigured := nofun
    seeded := fun _ => ⟨hvalid, rfl, (by decide : dcSeed &&& 0xF8 = 0x08), rfl, rfl⟩
    initializing := fun _ => begin_busy s
    idle := nofun
    waits := fun a ha => by
      cases ha
      exact waitLoad_bounds (.setOE true)
    repeats := fun h => absurd hrep h
    allLow := fun h => by simp [hpending, hbus.allLow] at h
    setOE := fun v => ⟨hbus.setOE v, fun h => by
      cases h
      exact ⟨rfl, rfl, hlow⟩⟩
    driven := fun _ => .inr rfl
    pulses := by
      obtain ⟨-, he, -⟩ := hlow
      exact ⟨.rest, by rw [hpending]; exact hbus.runs, he⟩
    nibbles := fun _ hw => by
      obtain ⟨-, -, -, hdl⟩ := hlow
      refine ⟨by simp [hdl], ?_⟩
      rw [hpending, List.forall_mem_cons]
      exact ⟨rfl, hbus.nibbles hw⟩ }

/-- An accepted command other than INIT leaves bus actions pending, or CLOSE's AllLow alone. -/
theorem acceptedState_pending {s : State} (hb : s.busy = false) (i : Instr) :
    BusActions s.acfg.width (acceptedState s i).pending ∨ (acceptedState s i).pending = [.allLow] := by
  have hidle : BusActions s.acfg.width s.pending := (busy_eq_false_iff s).1 hb ▸ .nil _
  have hwrite (p : Byte) (sel : Bool) : BusActions s.acfg.width (s.write p sel []).pending :=
    pending_write_nil hb p sel ▸ busActions_busWrite _ p sel
  have htoggle (k : Nat) (on : Bool) : BusActions s.acfg.width (s.toggle k on).pending :=
    pending_toggle hb k on ▸ busActions_busWrite _ _ _
  cases i with
  | init => exact .inl hidle
  | clear =>
    refine .inl ?_
    rw [acceptedState, pending_write hb]
    exact (busActions_busWrite _ _ _).append (busActions_clear _)
  | home => exact .inl (hwrite _ _)
  | cursorBlink on => exact .inl (htoggle _ _)
  | cursorVisible on => exact .inl (htoggle _ _)
  | displayOn on => exact .inl (htoggle _ _)
  | moveLeft n =>
    refine .inl ?_
    rw [acceptedState, pending_startMoves]
    exact (busActions_busWrite _ _ _).replicate n
  | setCursor row col =>
    refine .inl ?_
    rw [acceptedState]
    split
    · exact hwrite _ _
    · exact hidle
  | printChar g => exact .inl (hwrite _ _)
  | backlight on =>
    refine .inl ?_
    rw [acceptedState, pending_load_of_idle hb]
    exact busActions_setBL _ on
  | close => exact .inr (pending_load_of_idle hb _)

/-- An accepted command keeps the fixed bits of every mask (10_state.md R26 to R29). -/
theorem acceptedState_fixed_bits (s : State) (i : Instr) :
    (acceptedState s i).masks.em = s.masks.em ∧ (acceptedState s i).masks.dc &&& 0xF8 = s.masks.dc &&& 0xF8 ∧
      (acceptedState s i).masks.ds = s.masks.ds ∧ (acceptedState s i).masks.fs = s.masks.fs := by
  obtain hkeep | ⟨k, on, htoggles, hmasks⟩ := acceptedState_masks s i
  · simp [hkeep]
  · have hk : k < 3 := by rcases htoggles with ⟨-, rfl⟩ | ⟨-, rfl⟩ | ⟨-, rfl⟩ <;> decide
    simp only [hmasks, setMaskBit_and_high hk, and_self]

/-- An accepted command keeps the invariant. -/
theorem inv_acceptedState {s : State} (hinv : s.Inv) (hb : s.busy = false) (hs : s.initState = .ready) (i : Instr) :
    (acceptedState s i).Inv := by
  obtain ⟨hstate, hacfg, hpads⟩ := acceptedState_frame s i
  obtain ⟨hem, hdc, hds, hfs⟩ := acceptedState_fixed_bits s i
  obtain ⟨hidle, hloaded⟩ := started_acceptedState hinv hb i
  have hconfigured : s.initState ≠ .unconfigured := by simp [hs]
  have hpending := acceptedState_pending hb i
  have hready : (acceptedState s i).initState = .ready := hstate.trans hs
  exact {
    unconfigured := by simp [hready]
    seeded := fun _ => by
      rw [hacfg, hem, hdc, hds, hfs]
      exact hinv.seeded hconfigured
    initializing := by simp [hready]
    idle := hidle
    waits := fun a ha => hloaded a ha ▸ waitLoad_bounds a
    repeats := fun _ => hready
    allLow := fun h => ⟨hready, hpending.resolve_left fun hbus => hbus.allLow h⟩
    setOE := setOE_of_not_mem_pending fun v => by
      obtain hbus | hclose := hpending
      · exact hbus.setOE v
      · simp [hclose]
    driven := fun _ => .inl (hpads ▸ oe_of_ready_idle hinv hb hs)
    pulses := by
      refine ⟨.rest, ?_, hpads ▸ e_low_of_idle hinv hb⟩
      obtain hbus | hclose := hpending
      · exact hbus.runs
      · rw [hclose]
        rfl
    nibbles := fun _ hw => by
      rw [hacfg] at hw
      rw [hpads]
      refine ⟨(hinv.nibbles hconfigured hw).1, ?_⟩
      obtain hbus | hclose := hpending
      · exact hbus.nibbles hw
      · simp [hclose, Action.lowLines] }

/-- An access of an idle block keeps the invariant. -/
theorem inv_access {s u : State} (hinv : s.Inv) (hb : s.busy = false) (h : s.access = .next u) : u.Inv := by
  rcases access_cases s with ⟨-, -, ha⟩ | ⟨-, -, ha⟩ | ⟨-, -, ha⟩ | ha <;> rw [ha] at h
  · rcases handleCmd_cases s.pins.hwdata s with ⟨e, hc⟩ | ⟨-, hs, hvalid, -, -, hc⟩ | ⟨i, -, -, -, hs, hc⟩ <;>
      rw [hc] at h <;> cases h
    · exact inv_environment hinv _ s.config s.hrdata s.host s.draws
    · exact inv_begin hinv hb hs hvalid
    · exact inv_acceptedState hinv hb hs i
  · cases h
    exact inv_environment hinv _ s.config s.hrdata s.host s.draws
  · cases h
    exact inv_environment hinv s.errors _ s.hrdata s.host s.draws
  · cases h
    exact hinv

/-! ### The invariant through a cycle of the sequencer -/

/-- A wait that counts down keeps the invariant. -/
theorem inv_countDown {s : State} (hinv : s.Inv) {d : Delay} (hc : s.current = some (.wait d)) (hw : 1 < s.waitCount) :
    ({ s with waitCount := s.waitCount - 1 } : State).Inv := by
  refine ⟨hinv.unconfigured, hinv.seeded, hinv.initializing, ?idle, ?waits, hinv.repeats, hinv.allLow, hinv.setOE,
    hinv.driven, hinv.pulses, hinv.nibbles⟩
  case idle => simp [hc]
  case waits =>
    intro a ha
    obtain rfl : Action.wait d = a := Option.some.inj (hc.symm.trans ha)
    refine ⟨fun t ht => ?_, fun hne => absurd rfl (hne d)⟩
    obtain ⟨-, hle⟩ := (hinv.waits _ hc).1 t ht
    simp only
    omega

/-- While AllLow is carried out nothing follows it (42_lifecycle.md R103). -/
theorem nothing_follows_allLow {s : State} (hinv : s.Inv) (hc : s.current = some .allLow) :
    s.queue = [] ∧ s.repeatLeft = 0 := by
  have hmem : Action.allLow ∈ s.pending := by simp [pending_of_current hc]
  obtain ⟨-, hpending⟩ := hinv.allLow hmem
  rw [pending_of_current hc] at hpending
  cases hrep : s.repeatLeft <;> simp_all [List.replicate_succ, busWrite_ne_nil]

/-- AllLow completes in an idle UNCONFIGURED block (42_lifecycle.md R103). -/
theorem inv_complete_allLow {s : State} (hinv : s.Inv) (hc : s.current = some .allLow) : (s.complete .allLow).Inv := by
  have hb : (s.complete .allLow).busy = false := (complete_busy_eq_false_iff _ s).2 (nothing_follows_allLow hinv hc)
  refine inv_of_unconfigured (by simp [complete_initState]) ?_ ?_ hb ?_ ?_
  · simp [State.complete]
  · simp [State.complete]
  · exact ((started_complete .allLow s).idle (idle_fields hb).1).2.2
  · rw [State.complete_pads]
    exact ⟨rfl, rfl, rfl, rfl⟩

/-- An action other than AllLow leaves STATE, masks and ACFG as a configured block's, and READY if it was. -/
theorem complete_frame {s : State} {a : Action} (ha : a ≠ .allLow) :
    (s.complete a).acfg = s.acfg ∧ (s.complete a).masks = s.masks ∧
      ((s.complete a).initState = s.initState ∨ (s.complete a).initState = .ready) := by
  refine ⟨by simp [State.complete, ha], by simp [State.complete, ha], ?_⟩
  rw [complete_initState, if_neg ha]
  split <;> simp

/-- In 4-bit width an action that leaves DL[7:4] alone keeps them low (40_bus_writer.md R80). -/
theorem apply_dl_high {a : Action} {p : Pads} (ha : a.lowLines = true) (hp : p.dl &&& 0xF0 = 0) :
    (a.apply p).dl &&& 0xF0 = 0 := by
  cases a with
  | setBus rs d => exact eq_of_beq ha
  | allLow => exact (by decide : (0 : Byte) &&& 0xF0 = 0)
  | _ => exact hp

/-- Once an action of a configured block is done, its pads are driven (42_lifecycle.md R101). -/
theorem apply_oe_of_inv {s : State} (hinv : s.Inv) (hs : s.initState ≠ .unconfigured) {a : Action}
    (hc : s.current = some a) : (a.apply s.pads).oe = true := by
  by_cases hoe : (a.apply s.pads).oe = s.pads.oe
  · obtain hdriven | hset := hinv.driven hs
    · exact hoe.trans hdriven
    · obtain rfl : a = .setOE true := Option.some.inj (hc.symm.trans hset)
      rfl
  · obtain ⟨rfl, -, -⟩ := setOE_true_of_apply_oe_ne hinv hc hoe
    rfl

theorem advance_repeatLeft_le (s : State) : s.advance.repeatLeft ≤ s.repeatLeft := by
  unfold State.advance
  split <;> simp

/-- An action other than AllLow that completes keeps the invariant. -/
theorem inv_complete {s : State} (hinv : s.Inv) {a : Action} (hc : s.current = some a) (ha : a ≠ .allLow) :
    (s.complete a).Inv := by
  have hconfigured : s.initState ≠ .unconfigured := fun hs => by
    obtain ⟨-, -, hb, -⟩ := hinv.unconfigured hs
    simp [State.busy, hc] at hb
  obtain ⟨hacfg, hmasks, hstate⟩ := complete_frame (s := s) ha
  have hconfigured' : (s.complete a).initState ≠ .unconfigured := by
    rcases hstate with h | h <;> simp [h, hconfigured]
  have hpending : s.pending = a :: (s.complete a).pending := by rw [pending_of_current hc, pending_complete ha]
  obtain ⟨hidle, hloaded⟩ := started_complete a s
  exact {
    unconfigured := fun h => absurd h hconfigured'
    seeded := fun _ => by
      rw [hacfg, hmasks]
      exact hinv.seeded hconfigured
    initializing := settleInit_busy_of_initializing
    idle := hidle
    waits := fun b hb => hloaded b hb ▸ waitLoad_bounds b
    repeats := fun h => by
      have hle := advance_repeatLeft_le (({ s with pads := a.apply s.pads } : State).afterAction a)
      have hrep : s.repeatLeft ≠ 0 := fun h0 => by simp_all [State.complete]
      exact hstate.elim (·.trans (hinv.repeats hrep)) id
    allLow := fun h => by
      obtain ⟨-, hclose⟩ := hinv.allLow (hpending ▸ List.mem_cons_of_mem a h)
      rw [hpending] at hclose
      exact absurd (List.cons.inj hclose).1 ha
    setOE := setOE_of_not_mem_pending fun v => by
      rw [pending_complete ha, List.mem_append, not_or]
      exact ⟨(hinv.setOE v).1, ((busActions_busWrite _ _ _).replicate _).setOE v⟩
    driven := fun _ => .inl (by rw [State.complete_pads]; exact apply_oe_of_inv hinv hconfigured hc)
    pulses := by
      obtain ⟨p, hruns, he⟩ := hinv.pulses
      rw [hpending] at hruns
      obtain ⟨q, hnext, hruns⟩ := runs_cons_iff.1 hruns
      exact ⟨q, hruns, by rw [State.complete_pads]; exact apply_e_of_next hnext he⟩
    nibbles := fun _ hw => by
      obtain ⟨hdl, hlines⟩ := hinv.nibbles hconfigured (hacfg ▸ hw)
      rw [hpending, List.forall_mem_cons] at hlines
      rw [State.complete_pads]
      exact ⟨apply_dl_high hlines.1 hdl, hlines.2⟩ }

/-- A cycle of the sequencer keeps the invariant. -/
theorem inv_seqCycle {s : State} (hinv : s.Inv) (hb : s.busy = true) : s.seqCycle.Inv := by
  obtain ⟨a, hc, ⟨-, hseq⟩ | ⟨hleft, ⟨d, rfl⟩, hseq⟩⟩ := seqCycle_cases_of_inv hinv hb <;> rw [hseq]
  · by_cases ha : a = .allLow
    · subst ha
      exact inv_complete_allLow hinv hc
    · exact inv_complete hinv hc ha
  · exact inv_countDown hinv hc hleft

/-- Every step keeps the invariant. -/
theorem inv_step {s t : State} (hinv : s.Inv) (h : step s = .next t) : t.Inv := by
  rcases step_cases_by_busy h with ⟨-, rfl⟩ | ⟨-, hb, rfl⟩ | ⟨-, hb, u, hu, rfl⟩
  · exact inv_endCycle (inv_environment inv_reset _ _ _ s.host s.draws) s none
  · exact inv_endCycle (inv_environment (inv_seqCycle hinv hb) _ _ _ _ _) s s.readData
  · exact inv_endCycle (inv_access hinv hb hu) s s.readData

/-! ### The obligations -/

/-- Settles O48: after reset the block is idle, UNCONFIGURED and unseeded, with its latches low. -/
theorem invariantAtReset : Obligations.InvariantAtReset := inv_reset

/-- Settles O49, by the three kinds of cycle: reset, the sequencer's cycle of a busy block, and the access of an idle one. -/
theorem everyStepKeepsTheInvariant : Obligations.EveryStepKeepsTheInvariant := fun _ _ => inv_step

/-- Settles O51: reset clears ACFG, the sequencer writes it in AllLow only, and an access in INIT only. -/
theorem acfgWriters : Obligations.AcfgWriters := by
  intro s t hstep hne
  rcases step_cases_by_busy hstep with ⟨hr, rfl⟩ | ⟨-, -, rfl⟩ | ⟨-, -, u, hu, rfl⟩
  · exact .inl ⟨hr, rfl⟩
  · obtain ⟨-, hkeep⟩ | ⟨hc, -, hacfg⟩ := seqCycle_masks_acfg s
    · exact absurd hkeep hne
    · exact .inr (.inr ⟨hc, hacfg⟩)
  · obtain ⟨-, -, ⟨hw, haddr, hdata, hvalid, hok⟩, rfl⟩ | ⟨-, hkeep, -⟩ := access_begins_or_keeps hu
    · exact .inr (.inl ⟨hw, haddr, hdata, hvalid, hok, State.begin_acfg s⟩)
    · exact absurd hkeep hne

/-- Settles O52: out of reset the action being carried out changes OE, and the invariant leaves it only SetOE(1). -/
theorem outputEnableWriters : Obligations.OutputEnableWriters := by
  intro s t hinv hstep hne
  rcases hr : s.pins.rstN with _ | _
  · rw [step_reset hr] at hstep
    cases hstep
    exact .inl ⟨rfl, rfl⟩
  · obtain hkeep | ⟨a, hc, hpads⟩ := step_pads hr hstep
    · exact absurd (congrArg Pads.oe hkeep) hne
    · rw [hpads] at hne ⊢
      obtain ⟨rfl, hs, -⟩ := setOE_true_of_apply_oe_ne hinv hc hne
      exact .inr ⟨hc, hs, rfl⟩

/-- Settles O53: while UNCONFIGURED no action runs, and SetOE touches no latch. -/
theorem latchesLowUntilInitWrites : Obligations.LatchesLowUntilInitWrites := by
  intro s t hinv hstep hlatches
  have hlow : s.pads.Low := by
    rcases hlatches with hs | ⟨v, hc⟩
    · exact (hinv.unconfigured hs).2.2.2
    · exact ((hinv.setOE v).2 hc).2.2
  refine ⟨hlow, ?_⟩
  rcases hr : s.pins.rstN with _ | _
  · rw [step_reset hr] at hstep
    cases hstep
    exact ⟨rfl, rfl, rfl, rfl⟩
  · obtain hkeep | ⟨a, hc, hpads⟩ := step_pads hr hstep
    · exact hkeep ▸ hlow
    · rcases hlatches with hs | ⟨v, hc'⟩
      · obtain ⟨-, -, hb, -⟩ := hinv.unconfigured hs
        simp [(idle_fields hb).1] at hc
      · obtain rfl : a = .setOE v := Option.some.inj (hc.symm.trans hc')
        rw [hpads]
        exact hlow

end Sys2Proof.Machine
end

section
/-! SUPPORT. The time a command takes and the pads while it runs: the cycles left and the pad trace in one cycle, then over a run by one
induction, and the statements about the sequencer that are assembled from them (00_scope.md R12, 10_state.md R20, R36, R38,
40_bus_writer.md R81 to R85, 70_reset_and_hazards.md R129, R136, R137). -/

namespace Sys2Proof.Machine

/-! ### The cycles left and the pad trace by the pending actions -/

theorem actionsDuration_replicate (n : Nat) (acts : List Action) :
    actionsDuration (List.replicate n acts).flatten = n * actionsDuration acts := by
  induction n with
  | zero => simp
  | succ n ih => rw [List.replicate_succ, List.flatten_cons, actionsDuration_append, ih, Nat.succ_mul, Nat.add_comm]

theorem remaining_of_current {s : State} {a : Action} (hc : s.current = some a) :
    s.remaining = a.cyclesLeft s.waitCount + actionsDuration s.pending.tail := by
  simp only [State.remaining, hc, pending_of_current hc, List.tail_cons, actionsDuration_append,
    actionsDuration_replicate, Nat.add_assoc]

theorem trace_of_current {s : State} {a : Action} (hc : s.current = some a) :
    s.trace = List.replicate (a.cyclesLeft s.waitCount - 1) s.pads
      ++ a.apply s.pads :: padTrace (a.apply s.pads) s.pending.tail := by
  simp only [State.trace, hc]

theorem remaining_of_idle {s : State} (hb : s.busy = false) : s.remaining = 0 := by
  simp [State.remaining, (idle_fields hb).1]

/-- Where an action has just started, all the pending actions' cycles are left. -/
theorem State.Started.remaining_eq {s : State} (hs : s.Started) : s.remaining = actionsDuration s.pending := by
  rcases hc : s.current with _ | a
  · obtain ⟨hq, hrep, -⟩ := hs.idle hc
    simp [State.remaining, State.pending, hc, hq, hrep]
  · rw [remaining_of_current hc, hs.loaded a hc, cyclesLeft_waitLoad, ← actionsDuration_cons, pending_of_current hc,
      List.tail_cons]

/-- Where an action has just started, the trace is that of all the pending actions. -/
theorem State.Started.trace_eq {s : State} (hs : s.Started) : s.trace = padTrace s.pads s.pending := by
  rcases hc : s.current with _ | a
  · obtain ⟨hq, hrep, -⟩ := hs.idle hc
    simp [State.trace, State.pending, hc, hq, hrep, padTrace]
  · rw [trace_of_current hc, hs.loaded a hc, cyclesLeft_waitLoad, pending_of_current hc, List.tail_cons, padTrace]

/-- An action's cycles, each with the pads at its end. -/
theorem padTrace_length (p : Pads) (acts : List Action) : (padTrace p acts).length = actionsDuration acts := by
  induction acts generalizing p with
  | nil => rfl
  | cons a rest ih =>
    have hpos := duration_pos a
    simp only [padTrace, List.length_append, List.length_replicate, List.length_cons, ih, actionsDuration_cons]
    omega

/-- In a state of the invariant the current action has a cycle left. -/
theorem cyclesLeft_pos {s : State} (hinv : s.Inv) {a : Action} (hc : s.current = some a) :
    1 ≤ a.cyclesLeft s.waitCount := by
  cases a with
  | wait d => exact ((hinv.waits _ hc).1 d rfl).1
  | _ => exact le_rfl

/-- The trace has one entry for each cycle left. -/
theorem trace_length {s : State} (hinv : s.Inv) : s.trace.length = s.remaining := by
  rcases hc : s.current with _ | a
  · simp [State.trace, State.remaining, hc]
  · have hpos := cyclesLeft_pos hinv hc
    simp only [trace_of_current hc, remaining_of_current hc, List.length_append, List.length_replicate,
      List.length_cons, padTrace_length]
    omega

/-- In a state of the invariant BUSY is 1 exactly while there are cycles left (10_state.md R20). -/
theorem busy_eq_remaining {s : State} (hinv : s.Inv) : s.busy = decide (s.remaining ≠ 0) := by
  rcases hb : s.busy with _ | _
  · simp [remaining_of_idle hb]
  · obtain ⟨a, hc, -⟩ := seqCycle_cases_of_inv hinv hb
    have hpos := cyclesLeft_pos hinv hc
    rw [remaining_of_current hc, eq_comm, decide_eq_true_iff]
    omega

/-! ### One cycle -/

/-- Whatever action completes, the ones after it are pending then. -/
theorem pending_complete_of_inv {s : State} (hinv : s.Inv) {a : Action} (hc : s.current = some a) :
    (s.complete a).pending = s.pending.tail := by
  by_cases ha : a = .allLow
  · subst ha
    have hrest := nothing_follows_allLow hinv hc
    rw [(busy_eq_false_iff _).1 ((complete_busy_eq_false_iff .allLow s).2 hrest), pending_of_current hc]
    simp [hrest]
  · rw [pending_complete ha, pending_of_current hc, List.tail_cons]

/-- A cycle of the sequencer takes one of the cycles left, and leaves the pads as the trace says. -/
theorem seqCycle_progress {s : State} (hinv : s.Inv) (hb : s.busy = true) :
    s.remaining = s.seqCycle.remaining + 1 ∧ s.trace = s.seqCycle.pads :: s.seqCycle.trace := by
  obtain ⟨a, hc, ⟨hleft, hseq⟩ | ⟨hleft, ⟨d, rfl⟩, hseq⟩⟩ := seqCycle_cases_of_inv hinv hb <;> rw [hseq]
  · have hstarted := started_complete a s
    rw [remaining_of_current hc, trace_of_current hc, hleft, hstarted.remaining_eq, hstarted.trace_eq,
      pending_complete_of_inv hinv hc, State.complete_pads]
    exact ⟨Nat.add_comm _ _, rfl⟩
  · obtain ⟨n, hn⟩ := Nat.exists_eq_add_of_lt hleft
    have hcount : s.waitCount = n + 2 := by
      simp only [Action.cyclesLeft] at hn
      omega
    have hc' : ({ s with waitCount := s.waitCount - 1 } : State).current = some (.wait d) := hc
    rw [remaining_of_current hc, trace_of_current hc, remaining_of_current hc', trace_of_current hc']
    simp only [Action.cyclesLeft, hcount]
    refine ⟨?_, rfl⟩
    exact Nat.add_right_comm (n + 1) 1 _

/-- A cycle out of reset of a busy block takes one of the cycles left, and leaves the pads as the trace says, whatever the host does. -/
theorem step_progress {s t : State} (hinv : s.Inv) (hr : s.pins.rstN = true) (hb : s.busy = true) (h : step s = .next t) :
    s.remaining = t.remaining + 1 ∧ s.trace = t.pads :: t.trace := by
  rw [step_busy hr hb] at h
  cases h
  exact seqCycle_progress hinv hb

/-! ### The host's script in a run -/

/-- The script after a step is what the cycle leaves of it. -/
theorem step_host {s t : State} (h : step s = .next t) : t.host = s.hostAfter := by
  obtain ⟨-, rfl⟩ | ⟨-, u, -, rfl⟩ := step_cases h <;> rfl

theorem rstN_of_noReset {s : State} (h : s.NoReset) : s.pins.rstN = true := by
  unfold State.pins
  split
  next => rfl
  next p later hhost => exact h (.drive p) (by simp [hhost])
  next => rfl

theorem noReset_step {s t : State} (h : s.NoReset) (hstep : step s = .next t) : t.NoReset := fun a ha =>
  h a (hostAfter_subset s a (step_host hstep ▸ ha))

/-! ### Runs -/

/-- A run of k cycles and then one more. -/
theorem after_snoc {k : Nat} {s t u : State} (h : s.after k = some t) (hstep : step t = .next u) :
    s.after (k + 1) = some u := by
  induction k generalizing s with
  | zero =>
    cases h
    simp [State.after, hstep]
  | succ k ih =>
    obtain ⟨v, hv⟩ := everyStepAnswers s
    rw [after_succ hv] at h ⊢
    exact ih h

/-- The run of a command in progress, once for all: a property that keeps the cycles out of reset, and that every cycle of a busy block
keeps, holds for as long as there are cycles left; each cycle takes one of them and one entry of the trace. -/
theorem run_of_le_remaining {P : State → Prop} (hrun : ∀ s, P s → s.pins.rstN = true)
    (hkeep : ∀ s t, s.Inv → P s → s.busy = true → step s = .next t → P t) {s : State} (hinv : s.Inv) (hP : P s) {k : Nat}
    (hk : k ≤ s.remaining) :
    ∃ t, s.after k = some t ∧ t.Inv ∧ P t ∧ t.remaining = s.remaining - k ∧ t.trace = s.trace.drop k := by
  induction k generalizing s with
  | zero => exact ⟨s, rfl, hinv, hP, rfl, rfl⟩
  | succ k ih =>
    have hb : s.busy = true := by
      rw [busy_eq_remaining hinv, decide_eq_true_iff]
      omega
    obtain ⟨u, hu⟩ := everyStepAnswers s
    obtain ⟨hrem, htrace⟩ := step_progress hinv (hrun s hP) hb hu
    obtain ⟨t, ht, hinv', hP', hrem', htrace'⟩ := ih (inv_step hinv hu) (hkeep s u hinv hP hb hu) (by omega)
    exact ⟨t, (after_succ hu k).trans ht, hinv', hP', by omega, by rw [htrace', htrace, List.drop_succ_cons]⟩

/-- Without a reset ahead, a command in progress runs for the cycles it has left. -/
theorem run_of_noReset {s : State} (hinv : s.Inv) (hn : s.NoReset) {k : Nat} (hk : k ≤ s.remaining) :
    ∃ t, s.after k = some t ∧ t.Inv ∧ t.NoReset ∧ t.remaining = s.remaining - k ∧ t.trace = s.trace.drop k :=
  run_of_le_remaining (fun _ => rstN_of_noReset) (fun _ _ _ hn _ => noReset_step hn) hinv hn hk

/-- The pads after each cycle of a command in progress are those of its trace. -/
theorem pads_of_lt_remaining {s : State} (hinv : s.Inv) (hn : s.NoReset) {k : Nat} (hk : k < s.remaining) :
    ∃ t, s.after (k + 1) = some t ∧ s.trace[k]? = some t.pads := by
  obtain ⟨t, ht, hinv', hn', hrem, htrace⟩ := run_of_noReset hinv hn hk.le
  have hb : t.busy = true := by
    rw [busy_eq_remaining hinv', decide_eq_true_iff]
    omega
  obtain ⟨u, hu⟩ := everyStepAnswers t
  obtain ⟨-, hentry⟩ := step_progress hinv' (rstN_of_noReset hn') hb hu
  refine ⟨u, after_snoc ht hu, ?_⟩
  rw [← List.head?_drop, ← htrace, hentry, List.head?_cons]

/-! ### The obligations on a command in progress -/

/-- Settles O38: a busy block's current action completes or waits, and an idle block has none. -/
theorem actionsDriveThePads : Obligations.ActionsDriveThePads := by
  intro s t hinv hr hstep
  have hpads : t.pads = (s.current.elim s.pads fun a => a.apply s.pads) := by
    rcases step_cases_by_busy hstep with ⟨hr', -⟩ | ⟨-, hb, rfl⟩ | ⟨-, hb, u, hu, rfl⟩
    · simp [hr] at hr'
    · obtain ⟨a, hc, ⟨-, hseq⟩ | ⟨-, ⟨d, rfl⟩, hseq⟩⟩ := seqCycle_cases_of_inv hinv hb <;> simp [hseq, hc]
      rfl
    · simpa [(idle_fields hb).1] using access_pads hu
  rw [hpads]
  rcases s.current with _ | _ | _ | _ | _ | _ | _ <;> rfl

/-- Settles O42: each cycle of the run takes one of the cycles left, and BUSY is 1 while there are any. -/
theorem busyCoversTheQueueExactly : Obligations.BusyCoversTheQueueExactly := by
  intro s hinv hn
  refine ⟨fun k hk => ?_, ?_⟩
  · obtain ⟨t, ht, hinv', -, hrem, -⟩ := run_of_noReset hinv hn hk.le
    refine ⟨t, ht, ?_, hrem⟩
    rw [busy_eq_remaining hinv', decide_eq_true_iff]
    omega
  · obtain ⟨t, ht, hinv', -, hrem, -⟩ := run_of_noReset hinv hn le_rfl
    exact ⟨t, ht, by simp [busy_eq_remaining hinv', hrem]⟩

/-- Settles O43: the trace has an entry for each cycle of the run, and each cycle leaves the pads of its entry. -/
theorem commandRunsItsActions : Obligations.CommandRunsItsActions := fun _ hinv hn =>
  ⟨trace_length hinv, fun _ hk => pads_of_lt_remaining hinv hn hk⟩

end Sys2Proof.Machine
end

section
/-! SUPPORT. A wait cycle by cycle, and the pads through one enable pulse, and the statements about them (10_state.md R38,
40_bus_writer.md R81 to R85, 70_reset_and_hazards.md R136). -/

namespace Sys2Proof.Machine

/-! ### Waits -/

theorem busy_of_current {s : State} {a : Action} (hc : s.current = some a) : s.busy = true := by
  simp [State.busy, hc]

/-- A wait with more than a cycle left counts down, and nothing else happens to the command (10_state.md R38). -/
theorem step_of_waiting {s : State} {d : Delay} (hr : s.pins.rstN = true) (hc : s.current = some (.wait d))
    (hw : 1 < s.waitCount) :
    ∃ t, step s = .next t ∧ t.current = some (.wait d) ∧ t.waitCount = s.waitCount - 1 ∧ t.pads = s.pads ∧
      t.pending = s.pending := by
  have hseq : s.seqCycle = { s with waitCount := s.waitCount - 1 } := by simp [State.seqCycle, hc, Nat.not_le.2 hw]
  refine ⟨_, step_busy hr (busy_of_current hc), ?_⟩
  rw [hseq]
  exact ⟨hc, rfl, rfl, rfl⟩

/-- A wait in its last cycle completes: the pads stay, and the actions after it are pending. -/
theorem step_of_wait_end {s : State} {d : Delay} (hr : s.pins.rstN = true) (hc : s.current = some (.wait d))
    (hw : s.waitCount ≤ 1) : ∃ t, step s = .next t ∧ t.pads = s.pads ∧ t.pending = s.pending.tail := by
  have hseq : s.seqCycle = s.complete (.wait d) := by simp [State.seqCycle, hc, hw]
  have hpending : (s.complete (.wait d)).pending = s.pending.tail := by
    rw [pending_complete (a := .wait d) nofun, pending_of_current hc, List.tail_cons]
  refine ⟨_, step_busy hr (busy_of_current hc), ?_⟩
  rw [hseq]
  exact ⟨State.complete_pads _ s, hpending⟩

/-- Without a reset ahead a wait lasts as long as its counter says. -/
theorem after_of_lt_waitCount {s : State} {d : Delay} (hn : s.NoReset) (hc : s.current = some (.wait d)) {k : Nat}
    (hk : k < s.waitCount) :
    ∃ u, s.after k = some u ∧ u.NoReset ∧ u.current = some (.wait d) ∧ u.waitCount = s.waitCount - k ∧
      u.pads = s.pads ∧ u.pending = s.pending := by
  induction k with
  | zero => exact ⟨s, rfl, hn, hc, rfl, rfl, rfl⟩
  | succ k ih =>
    obtain ⟨u, hu, hn', hc', hcount, hpads, hpending⟩ := ih (Nat.lt_of_succ_lt hk)
    obtain ⟨t, ht, hc'', hcount', hpads', hpending'⟩ := step_of_waiting (rstN_of_noReset hn') hc' (by omega)
    exact ⟨t, after_snoc hu ht, noReset_step hn' ht, hc'', by omega, hpads'.trans hpads, hpending'.trans hpending⟩

/-- Settles O39: the counter counts down from W_T to 1, and in the cycle of 1 the wait completes. -/
theorem waitLastsExactly : Obligations.WaitLastsExactly := by
  intro s d hn hc hcount
  refine ⟨fun k hk => ?_, ?_⟩
  · obtain ⟨u, hu, -, hc', hcount', hpads, -⟩ := after_of_lt_waitCount hn hc (hcount ▸ hk)
    exact ⟨u, hu, hc', hcount ▸ hcount', hpads⟩
  · obtain ⟨n, hn'⟩ := Nat.exists_eq_add_of_le' (delay_cycles_pos d)
    obtain ⟨u, hu, hnr, hc', hcount', hpads, hpending⟩ := after_of_lt_waitCount (k := n) hn hc (by omega)
    obtain ⟨t, ht, hpads', hpending'⟩ := step_of_wait_end (rstN_of_noReset hnr) hc' (by omega)
    exact ⟨t, hn' ▸ after_snoc hu ht, hpads'.trans hpads, hpending ▸ hpending'⟩

/-! ### The trace of an enable pulse -/

/-- A wait keeps the pads for its W_T cycles (00_scope.md R12). -/
theorem padTrace_wait (p : Pads) (d : Delay) (later : List Action) :
    padTrace p (.wait d :: later) = List.replicate d.cycles p ++ padTrace p later := by
  obtain ⟨n, hn⟩ := Nat.exists_eq_add_of_le' (delay_cycles_pos d)
  simp [padTrace, Action.duration, Action.apply, hn, List.replicate_succ']

theorem padTrace_setE (p : Pads) (v : Bool) (later : List Action) :
    padTrace p (.setE v :: later) = { p with e := v } :: padTrace { p with e := v } later := rfl

/-- The levels through one pulse: E rises after the setup wait and falls after the E-high wait (40_bus_writer.md R81, R84). -/
theorem padTrace_pulse {p : Pads} (he : p.e = false) (later : List Action) :
    padTrace p (pulse ++ later)
      = List.replicate Config.wShort p ++ (List.replicate (Config.wShort + 1) { p with e := true }
        ++ (List.replicate (Config.wSettle + 1) p ++ padTrace p later)) := by
  have hfall : ({ p with e := false } : Pads) = p := by rw [← he]
  simp [pulse, padTrace_wait, padTrace_setE, Delay.cycles, hfall, List.replicate_succ]

/-- The levels after each cycle of a pulse. -/
theorem padTrace_pulse_getElem? {p : Pads} (he : p.e = false) (later : List Action) {i : Nat} (hi : i < pulseCycles) :
    (padTrace p (pulse ++ later))[i]?
      = some { p with e := decide (Config.wShort ≤ i ∧ i ≤ 2 * Config.wShort) } := by
  unfold pulseCycles at hi
  rw [padTrace_pulse he, List.getElem?_append, List.getElem?_append, List.getElem?_append]
  simp only [List.length_replicate, List.getElem?_replicate]
  by_cases hhigh : Config.wShort ≤ i ∧ i ≤ 2 * Config.wShort
  · rw [if_neg (by omega), if_pos (by omega), if_pos (by omega), decide_eq_true hhigh]
  · rw [decide_eq_false hhigh, ← he]
    by_cases hsetup : i < Config.wShort
    · rw [if_pos hsetup, if_pos hsetup]
    · rw [if_neg hsetup, if_neg (by omega), if_pos (by omega), if_pos (by omega)]

/-- In a state of the invariant, the first pending action is the current one. -/
theorem current_of_pending_cons {s : State} (hinv : s.Inv) {a : Action} {later : List Action}
    (h : s.pending = a :: later) : s.current = some a := by
  rcases hc : s.current with _ | b
  · obtain ⟨hq, hrep, -⟩ := hinv.idle hc
    simp [State.pending, hc, hq, hrep] at h
  · rw [pending_of_current hc] at h
    rw [(List.cons.inj h).1]

/-- Settles O40, by the trace of a pulse whose setup wait has just started. -/
theorem enablePulseWidth : Obligations.EnablePulseWidth := by
  intro s later hinv hn he hcount hpending k hk
  have hc := current_of_pending_cons hinv hpending
  have hstarted : s.Started := ⟨by simp [hc], fun a ha => by
    obtain rfl : Action.wait .short = a := Option.some.inj (hc.symm.trans ha)
    exact hcount⟩
  cases k with
  | zero => exact ⟨s, rfl, by simp [← he]⟩
  | succ i =>
    have hpulse : s.pending = pulse ++ later := hpending
    have hrem : i < s.remaining := by
      rw [hstarted.remaining_eq, hpulse, actionsDuration_append, pulse_duration, pulseCycles]
      omega
    obtain ⟨u, hu, hentry⟩ := pads_of_lt_remaining hinv hn hrem
    rw [hstarted.trace_eq, hpulse, padTrace_pulse_getElem? he later (by unfold pulseCycles; omega)] at hentry
    refine ⟨u, hu, (Option.some.inj hentry).symm.trans ?_⟩
    simp only [Nat.succ_le_succ_iff]

end Sys2Proof.Machine
end

section
/-! SUPPORT. The time each command takes, the run of INIT from its CMD write to READY, and the host's WAIT_IDLE, with the statements
about them (30_encoding.md R75, 42_lifecycle.md R99 to R102, 70_reset_and_hazards.md R129, R136, R137). -/

namespace Sys2Proof.Machine

/-! ### The busy time of each command -/

/-- `D_W` by its formulas (70_reset_and_hazards.md R136). -/
theorem writeCycles_eq (width : Bool) :
    writeCycles width = if width then 3 + 2 * Config.wShort + Config.wSettle
      else 6 + 4 * Config.wShort + 2 * Config.wSettle := by
  unfold writeCycles pulseCycles
  split <;> omega

/-- From an idle sequencer, a loaded list takes its own duration. -/
theorem load_remaining_of_idle {s : State} (hb : s.busy = false) (acts : List Action) :
    (s.load acts).remaining = actionsDuration acts := by
  obtain ⟨-, -, hrep⟩ := idle_fields hb
  simp [load_remaining, hrep]

/-- A write and what follows it. -/
theorem write_remaining {s : State} (hb : s.busy = false) (p : Byte) (sel : Bool) (more : List Action) :
    (s.write p sel more).remaining = writeCycles s.acfg.width + actionsDuration more := by
  rw [State.write, load_remaining_of_idle hb, actionsDuration_append, busWrite_duration]

/-- A toggle is one write. -/
theorem toggle_remaining {s : State} (hb : s.busy = false) (k : Nat) (on : Bool) :
    (s.toggle k on).remaining = writeCycles s.acfg.width :=
  write_remaining (s := { s with masks := { s.masks with dc := setMaskBit k on s.masks.dc } }) hb _ false []

/-- INIT's sequence takes 1 + 3*D_W + 2*W_SETTLE + W_CLEAR cycles (70_reset_and_hazards.md R137). -/
theorem initActions_duration (width : Bool) (m : MaskTable) :
    actionsDuration (initActions width m) = 1 + 3 * writeCycles width + 2 * Config.wSettle + Config.wClear := by
  simp only [initActions, actionsDuration_append, busWrite_duration, actionsDuration_cons, actionsDuration_nil,
    Action.duration, Delay.cycles]
  omega

theorem begin_remaining {s : State} (hb : s.busy = false) :
    s.begin.remaining = 1 + 3 * writeCycles s.config.width + 2 * Config.wSettle + Config.wClear := by
  have hload := load_remaining_of_idle
    (s := { s with acfg := s.config, masks := .seeded s.config, initState := .initializing }) hb
  exact (hload _).trans (initActions_duration _ _)

/-- The cycles an accepted runtime command or CLOSE takes (70_reset_and_hazards.md R137). -/
def commandCycles (c : CfgFields) : Instr → Nat
  | .init => 0
  | .clear => writeCycles c.width + Config.wClear
  | .home => writeCycles c.width
  | .cursorBlink _ => writeCycles c.width
  | .cursorVisible _ => writeCycles c.width
  | .displayOn _ => writeCycles c.width
  | .moveLeft n => n * writeCycles c.width
  | .setCursor row col => if c.inRange row col then writeCycles c.width else 0
  | .printChar _ => writeCycles c.width
  | .backlight _ => 1
  | .close => 1

theorem acceptedState_remaining {s : State} (hb : s.busy = false) (i : Instr) :
    (acceptedState s i).remaining = commandCycles s.acfg i := by
  cases i with
  | init => exact remaining_of_idle hb
  | clear => exact write_remaining hb _ _ _
  | home => exact write_remaining hb _ _ _
  | cursorBlink on => exact toggle_remaining hb _ _
  | cursorVisible on => exact toggle_remaining hb _ _
  | displayOn on => exact toggle_remaining hb _ _
  | moveLeft n => exact startMoves_remaining n s
  | setCursor row col =>
    rw [acceptedState, commandCycles]
    split
    · exact write_remaining hb _ _ _
    · exact remaining_of_idle hb
  | printChar g => exact write_remaining hb _ _ _
  | backlight on => exact load_remaining_of_idle hb [.setBL on]
  | close => exact load_remaining_of_idle hb [.allLow]

/-- An accepted command other than INIT takes its cycles. -/
theorem exec_remaining {s t : State} {i : Instr} (hb : s.busy = false) (hs : s.initState = .ready) (hi : i ≠ .init)
    (h : exec i s = .next t) : t.remaining = commandCycles s.acfg i := by
  rw [exec_accept hb hs hi] at h
  cases h
  exact acceptedState_remaining hb i

/-- A CMD write that is not accepted leaves an idle block idle, its error bit having been set before or not. -/
theorem handleCmd_idle_of_rejected {s t : State} {v : Word} (hb : s.busy = false) (h : s.handleCmd v = .next t)
    (hrej : t.errors ≠ s.errors ∨ Legal v = false ∨
      (∃ i, decode v = .ok i ∧ s.initState ≠ allowedState i) ∨
      (v = 0x01000000 ∧ (s.config.valid = false ∨ s.pinctlOk = false))) : t.busy = false := by
  have hlegal {i : Instr} (hi : decode v = .ok i) : Legal v ≠ false := fun hf => by
    obtain ⟨e, he⟩ := legal_eq_false_iff.1 hf
    rw [hi] at he
    cases he
  rcases handleCmd_cases v s with ⟨e, hc⟩ | ⟨-, hs, hvalid, hok, hdec, hc⟩ | ⟨i, hi, hdec, -, hs, hc⟩ <;>
    rw [hc] at h <;> cases h
  · exact hb
  · rcases hrej with herr | hill | ⟨j, hj, hstate⟩ | ⟨-, hchecks⟩
    · exact absurd (State.begin_errors s) herr
    · exact absurd hill (hlegal hdec)
    · obtain rfl : Instr.init = j := Except.ok.inj (hdec.symm.trans hj)
      exact absurd hs hstate
    · simp [hvalid, hok] at hchecks
  · rcases hrej with herr | hill | ⟨j, hj, hstate⟩ | ⟨rfl, -⟩
    · exact absurd (acceptedState_errors s i) herr
    · exact absurd hill (hlegal hdec)
    · obtain rfl : i = j := Except.ok.inj (hdec.symm.trans hj)
      exact absurd (hs.trans (allowedState_of_ne_init hi).symm) hstate
    · exact absurd (Except.ok.inj (hdec.symm.trans (decode_eq_init_iff.2 rfl))) hi

/-- Settles O41, by the cycles of each command and by what a rejected word leaves. -/
theorem busyTimes : Obligations.BusyTimes := by
  intro s t hb dw
  have hdw (width : Bool) : dw width = writeCycles width := (writeCycles_eq width).symm
  simp only [hdw]
  refine ⟨fun h hs hvalid hok => ?_, fun h hchecks => ?_, fun hs => ?_, fun v h hrej => ?_⟩
  · rw [(init_and_word_begin hb hs hvalid hok).1] at h
    cases h
    exact begin_remaining hb
  · rw [← handleCmd_encode s (i := .init) rfl] at h
    exact handleCmd_idle_of_rejected hb h (.inr (.inr (.inr ⟨rfl, hchecks⟩)))
  · have hrun (i : Instr) (hi : i ≠ .init) := exec_remaining (t := t) hb hs hi
    refine ⟨hrun .clear nofun, hrun .home nofun, fun on => hrun (.cursorBlink on) nofun,
      fun on => hrun (.cursorVisible on) nofun, fun on => hrun (.displayOn on) nofun, fun n => hrun (.moveLeft n) nofun,
      fun row col h => ?_, fun g => hrun (.printChar g) nofun, fun on => hrun (.backlight on) nofun, hrun .close nofun⟩
    have hin : s.acfg.inRange row col = decide (row < s.acfg.rows.toNat ∧ col < s.acfg.cols.toNat) := by
      simp [CfgFields.inRange]
    split
    next hrange => simpa [commandCycles, hin, hrange] using hrun (.setCursor row col) nofun h
    next hrange =>
      rw [exec_accept (i := .setCursor row col) hb hs nofun] at h
      cases h
      simpa [acceptedState, hin, hrange] using hb
  · simp only [← allowedState_eq_ite] at hrej
    exact handleCmd_idle_of_rejected hb h hrej

/-! ### The levels that a command ends with -/

/-- The pads once every pending action has been carried out. -/
def State.finalPads (s : State) : Pads := s.pending.foldl (fun p a => a.apply p) s.pads

theorem finalPads_of_idle {s : State} (hb : s.busy = false) : s.finalPads = s.pads := by
  simp [State.finalPads, (busy_eq_false_iff s).1 hb]

/-- A cycle of the sequencer takes nothing from and adds nothing to what the command ends with. -/
theorem seqCycle_finalPads {s : State} (hinv : s.Inv) (hb : s.busy = true) : s.seqCycle.finalPads = s.finalPads := by
  obtain ⟨a, hc, ⟨-, hseq⟩ | ⟨-, -, hseq⟩⟩ := seqCycle_cases_of_inv hinv hb <;> rw [hseq]
  · have hpending : s.pending = a :: (s.complete a).pending := by
      rw [pending_complete_of_inv hinv hc, pending_of_current hc, List.tail_cons]
    simp [State.finalPads, hpending]
  · rfl

/-- INIT ends with Clear's byte on the data lines and E low, in both widths. -/
theorem foldl_initActions (width : Bool) (m : MaskTable) (p : Pads) :
    (initActions width m).foldl (fun p a => a.apply p) p
      = { rs := false, e := false, bl := p.bl, dl := 0x01, oe := true } := by
  cases width <;> rfl

/-! ### INITIALIZING -/

/-- A cycle of an INITIALIZING block keeps ACFG and the masks, and ends INITIALIZING exactly where BUSY falls (10_state.md R24). -/
theorem step_of_initializing {s t : State} (hinv : s.Inv) (hr : s.pins.rstN = true) (hs : s.initState = .initializing)
    (h : step s = .next t) :
    t.acfg = s.acfg ∧ t.masks = s.masks ∧ t.finalPads = s.finalPads ∧
      t.initState = if t.busy then .initializing else .ready := by
  have hb := hinv.initializing hs
  obtain ⟨hrem, -⟩ := step_progress hinv hr hb h
  have hbusy := busy_eq_remaining (inv_step hinv h)
  rw [step_busy hr hb] at h
  cases h
  have hkeep : s.seqCycle.masks = s.masks ∧ s.seqCycle.acfg = s.acfg := by
    obtain hkeep | ⟨hc, -⟩ := seqCycle_masks_acfg s
    · exact hkeep
    · simpa [hs] using (hinv.allLow (by simp [pending_of_current hc])).1
  refine ⟨hkeep.2, hkeep.1, seqCycle_finalPads hinv hb, ?_⟩
  rw [hbusy]
  exact (seqCycle_initState_of_initializing hinv hs).trans (by simp [hrem])

/-- The run of INIT: what it latched and will leave stays, and it is INITIALIZING for as long as BUSY is 1. -/
structure InitRun (c : CfgFields) (s : State) : Prop where
  noReset : s.NoReset
  acfg : s.acfg = c
  masks : s.masks = .seeded c
  finalPads : s.finalPads = { rs := false, e := false, bl := false, dl := 0x01, oe := true }
  initState : s.initState = if s.busy then .initializing else .ready

theorem initRun_step (c : CfgFields) (s t : State) (hinv : s.Inv) (h : InitRun c s) (hb : s.busy = true)
    (hstep : step s = .next t) : InitRun c t := by
  have hs : s.initState = .initializing := by simp [h.initState, hb]
  obtain ⟨hacfg, hmasks, hfinal, hstate⟩ := step_of_initializing hinv (rstN_of_noReset h.noReset) hs hstep
  exact ⟨noReset_step h.noReset hstep, hacfg.trans h.acfg, hmasks.trans h.masks, hfinal.trans h.finalPads, hstate⟩

/-! ### From the CMD write of INIT -/

section
variable {s : State} {later : List HostAction} (hinv : s.Inv) (hs : s.initState = .unconfigured)
  (hvalid : s.config.valid = true) (hhost : s.host = .drive (.write .cmd 0x01000000 true) :: later)
include hinv hs hvalid hhost

/-- The cycle of the CMD write of an INIT that passes its checks. -/
theorem step_initWrite : step s = .next (s.endCycle s.readData s.begin) := by
  obtain ⟨-, -, hb, -⟩ := hinv.unconfigured hs
  have hpins : s.pins = .write .cmd 0x01000000 true := by simp [State.pins, hhost]
  have hwrites : s.WritesInit := by simp [State.WritesInit, State.pinctlOk, hpins, HostPins.write, HostReg.index, hvalid]
  have hr : s.pins.rstN = true := by simp [hpins, HostPins.write]
  rw [step_run hr (access_eq_begin hb hs hwrites), hb]
  rfl

/-- After it, the actions of INIT are pending from their start, on the low latches. -/
theorem after_initWrite (hn : s.NoReset) :
    ∃ t, step s = .next t ∧ t.Inv ∧ t.Started ∧ t.pads = s.pads ∧ InitRun s.config t ∧
      t.pending = initActions s.config.width (.seeded s.config) := by
  obtain ⟨-, -, hb, -, -, hbl, -⟩ := hinv.unconfigured hs
  have hstep := step_initWrite hinv hs hvalid hhost
  have hbegin := pending_begin hb
  have hstarted : s.begin.Started :=
    started_load (acts := initActions s.config.width (.seeded s.config)) nofun
  refine ⟨_, hstep, inv_step hinv hstep, ⟨hstarted.idle, hstarted.loaded⟩, State.begin_pads s,
    ⟨noReset_step hn hstep, rfl, rfl, ?_, rfl⟩, hbegin⟩
  have hfinal : s.begin.finalPads = { rs := false, e := false, bl := s.pads.bl, dl := 0x01, oe := true } := by
    rw [State.finalPads, hbegin, foldl_initActions, State.begin_pads]
  rw [hbl] at hfinal
  exact hfinal

end

/-- Settles O44: the run of INIT from the cycle after its CMD write. -/
theorem initRunsToReady : Obligations.InitRunsToReady := by
  intro s later hinv hn hs hvalid hhost n
  obtain ⟨t, hstep, hinv', hstarted, -, hinit, hpending⟩ := after_initWrite hinv hs hvalid hhost hn
  have hrem : t.remaining = n := by rw [hstarted.remaining_eq, hpending, initActions_duration]
  have hrun {k : Nat} (hk : k ≤ n) := run_of_le_remaining (fun _ h => rstN_of_noReset h.noReset)
    (initRun_step s.config) hinv' hinit (hrem ▸ hk)
  refine ⟨fun k hk hkn => ?_, ?_⟩
  · obtain ⟨j, rfl⟩ := Nat.exists_eq_add_of_le' hk
    obtain ⟨u, hu, hinv'', hinit', hleft, -⟩ := hrun (k := j) (by omega)
    have hb : u.busy = true := by
      rw [busy_eq_remaining hinv'', decide_eq_true_iff]
      omega
    exact ⟨u, (after_succ hstep j).trans hu, by simp [hinit'.initState, hb], hb⟩
  · obtain ⟨u, hu, hinv'', hinit', hleft, -⟩ := hrun le_rfl
    have hb : u.busy = false := by simp [busy_eq_remaining hinv'', hleft, hrem]
    refine ⟨u, Nat.add_comm n 1 ▸ (after_succ hstep n).trans hu, by simp [hinit'.initState, hb], hb, hinit'.acfg, ?_, ?_,
      ?_, ?_, finalPads_of_idle hb ▸ hinit'.finalPads⟩
    all_goals
      rw [hinit'.masks]
      rfl

/-- The actions of INIT up to its first enable rise. -/
theorem initActions_first_rise (width : Bool) (m : MaskTable) :
    ∃ d rest, initActions width m = .setOE true :: .setBus false d :: .wait .short :: .setE true :: rest := by
  cases width <;> exact ⟨_, _, rfl⟩

theorem padTrace_setOE (p : Pads) (v : Bool) (later : List Action) :
    padTrace p (.setOE v :: later) = { p with oe := v } :: padTrace { p with oe := v } later := rfl

theorem padTrace_setBus (p : Pads) (rs : Bool) (d : Byte) (later : List Action) :
    padTrace p (.setBus rs d :: later) = { p with rs := rs, dl := d } :: padTrace { p with rs := rs, dl := d } later := rfl

/-- The levels of E through SetOE, SetBus and a setup wait, and then SetE(1). -/
theorem padTrace_first_rise {p : Pads} (he : p.e = false) (v rs : Bool) (d : Byte) (rest : List Action) :
    ∃ later, (padTrace p (.setOE v :: .setBus rs d :: .wait .short :: .setE true :: rest)).map Pads.e
      = List.replicate (Config.wShort + 2) false ++ true :: later := by
  refine ⟨(padTrace { p with oe := v, rs := rs, dl := d, e := true } rest).map Pads.e, ?_⟩
  simp [padTrace_setOE, padTrace_setBus, padTrace_wait, padTrace_setE, Delay.cycles, he, List.replicate_succ]

/-- Settles O45: the trace of INIT's actions up to the first SetE(1). -/
theorem initFirstEnableRise : Obligations.InitFirstEnableRise := by
  intro s later hinv hn hs hvalid hhost
  obtain ⟨-, -, -, -, he, -⟩ := hinv.unconfigured hs
  obtain ⟨t, hstep, hinv', hstarted, hpads, hinit, hpending⟩ := after_initWrite hinv hs hvalid hhost hn
  obtain ⟨d, rest, hactions⟩ := initActions_first_rise s.config.width (.seeded s.config)
  obtain ⟨tail, htrace⟩ := padTrace_first_rise (p := t.pads) (hpads ▸ he) true false d rest
  rw [← hactions, ← hpending, ← hstarted.trace_eq] at htrace
  have hlen := congrArg List.length htrace
  rw [List.length_map, trace_length hinv', List.length_append, List.length_replicate, List.length_cons] at hlen
  have hlevel {i : Nat} (hi : i ≤ Config.wShort + 2) :
      ∃ u, s.after (i + 2) = some u ∧ (List.replicate (Config.wShort + 2) false ++ true :: tail)[i]? = some u.pads.e := by
    obtain ⟨u, hu, hentry⟩ := pads_of_lt_remaining hinv' hinit.noReset (k := i) (by omega)
    exact ⟨u, (after_succ hstep _).trans hu, by rw [← htrace, List.getElem?_map, hentry, Option.map_some]⟩
  refine ⟨fun k hk => ?_, ?_⟩
  · match k with
    | 0 => exact ⟨s, rfl, he⟩
    | 1 => exact ⟨t, after_succ hstep 0, hpads ▸ he⟩
    | i + 2 =>
      obtain ⟨u, hu, hentry⟩ := hlevel (i := i) (by omega)
      rw [List.getElem?_append_left (by simp; omega), List.getElem?_replicate_of_lt (by omega)] at hentry
      exact ⟨u, hu, (Option.some.inj hentry).symm⟩
  · obtain ⟨u, hu, hentry⟩ := hlevel le_rfl
    rw [List.getElem?_append_right (by simp), List.length_replicate, Nat.sub_self, List.getElem?_cons_zero] at hentry
    exact ⟨u, hu, (Option.some.inj hentry).symm⟩

/-! ### WAIT_IDLE -/

/-- STATUS[2] is BUSY (10_state.md R18). -/
theorem statusWord_getLsbD_two (st : InitState) (busy : Bool) (e : Errors) : (statusWord st busy e).getLsbD 2 = busy := by
  simp only [statusWord, BitVec.getLsbD_append]
  simp

/-- WAIT_IDLE stays while BUSY is 1 and goes after the cycle that reads BUSY = 0 (30_encoding.md R75). -/
theorem hostAfter_waitIdle {s : State} {ok : Bool} {later : List HostAction} (h : s.host = .waitIdle ok :: later) :
    s.hostAfter = if s.busy then .waitIdle ok :: later else later := by
  simp only [State.hostAfter, h, State.hostRead, statusWord_getLsbD_two]

theorem pins_waitIdle {s : State} {ok : Bool} {later : List HostAction} (h : s.host = .waitIdle ok :: later) :
    s.pins = .read .status ok := by
  simp [State.pins, h]

/-- Settles O46: WAIT_IDLE stays through the run of the command, and the next cycle reads BUSY = 0. -/
theorem waitIdleEnds : Obligations.WaitIdleEnds := by
  intro s ok later hinv hhost
  have hrun {k : Nat} (hk : k ≤ s.remaining) :=
    run_of_le_remaining (P := fun t => t.host = .waitIdle ok :: later) (fun _ h => by rw [pins_waitIdle h]; rfl)
      (fun t u _ h hb hstep => by rw [step_host hstep, hostAfter_waitIdle h, hb]; rfl) hinv hhost hk
  refine ⟨fun k hk => ?_, ?_⟩
  · obtain ⟨t, ht, -, hhost', -⟩ := hrun hk
    exact ⟨t, ht, hhost'⟩
  · obtain ⟨t, ht, hinv', hhost', hleft, -⟩ := hrun le_rfl
    have hb : t.busy = false := by simp [busy_eq_remaining hinv', hleft]
    have hpins := pins_waitIdle hhost'
    have hstep := step_of_no_write (s := t) (by rw [hpins]; rfl) (by rw [hpins]; rfl)
    rw [hb] at hstep
    refine ⟨_, t.hostRead .status, after_snoc ht hstep, ?_, hb, ?_, ?_⟩
    · exact (hostAfter_waitIdle hhost').trans (by simp [hb])
    · simp only [State.endCycle_hrdata, State.readData, hpins]
      rfl
    · rw [State.hostRead, statusWord_getLsbD_two, hb]

end Sys2Proof.Machine
end
